-- ==== Sys2Proof/Word.lean ====
section
/-! DEFINITION. The bit widths of the block's values (00_scope.md R9, R10): every value is unsigned. -/

namespace Sys2Proof

/-- A byte: a packet byte, a checksum, a byte on the line (R9). -/
abbrev Byte := BitVec 8

/-- A raw sample code, or the 16-bit immediate of a command (R9, R70). -/
abbrev Code := BitVec 16

/-- A word of the register port, a command word, a converted result (R9). -/
abbrev Word := BitVec 32

/-- A word index of the register port (R9, R50). -/
abbrev RegIdx := BitVec 6

end Sys2Proof
end

