-- ==== Sys2Proof/Config.lean ====
section
/-! DEFINITION. The build-time configuration (00_scope.md R7, R8): the parameters, the constraints a
configuration must meet, and the reference configuration with its open values. -/

namespace Sys2Proof

/-- PAD_LEN is 0 or 2 (R8). -/
inductive PadLen where
  | zero
  | two
deriving DecidableEq, Repr

/-- The number of padding bytes. -/
def PadLen.bytes : PadLen → Nat
  | .zero => 0
  | .two => 2

/-- START_MARKER of R7. -/
def startMarker : Byte := 0xA5#8

/-- CRC_POLY of R7: x^8 + x^2 + x + 1. -/
def crcPoly : Byte := 0x07#8

/-- CRC_INIT of R7. -/
def crcInit : Byte := 0x00#8

/-- DEBUG_CURRENT of R7. -/
def debugCurrent : Code := 0x0102#16

/-- DEBUG_VOLTAGE of R7. -/
def debugVoltage : Code := 0x0304#16

/-- The parameters of R7 and R8, with the defaults the spec gives. I_NUM, I_DEN, V_NUM, V_DEN and
UTB_BASE (20_memory.md R60) have none. T_TRIG is in microseconds. -/
structure Params where
  vrefMv : Nat := 3300
  fullScale : Nat := 4095
  codeBits : Nat := 12
  iNum : Nat
  iDen : Nat
  vNum : Nat
  vDen : Nat
  sendRaw : Bool := false
  padLen : PadLen := .zero
  padByte : Byte := 0x00#8
  crcXorOut : Byte := 0x00#8
  fixedDebugFields : Bool := false
  tTrigUs : Nat := 5000
  utbBase : Nat
deriving DecidableEq, Repr

/-- The largest stage-1 result, at code 65535 (40_converter.md R103). -/
def Params.maxMillivolts (p : Params) : Nat := (65535 * p.vrefMv) / p.fullScale

/-- The configuration constraints of R8 and 40_converter.md R104. It is enough to check the largest
code, since both conversions are monotonic. -/
def Params.legal (p : Params) : Bool :=
  decide (1 ≤ p.codeBits) && decide (p.codeBits ≤ 16) && decide (1 ≤ p.fullScale)
    && decide (1 ≤ p.iDen) && decide (1 ≤ p.vDen)
    && decide ((p.maxMillivolts * p.iNum) / p.iDen < 2 ^ 32)
    && decide ((p.maxMillivolts * p.vNum) / p.vDen < 2 ^ 32)

/-- A configuration: parameters that meet the constraints. One that breaks a constraint is refused
(R8), so it is no value of this type. -/
structure Config extends Params where
  legal : toParams.legal = true
deriving DecidableEq, Repr

/-- Parameters as a configuration, or `none` where they are refused (R8, R104). -/
def Config.of? (p : Params) : Option Config :=
  if h : p.legal = true then some ⟨p, h⟩ else none

/-- FRAME_LEN = 6 + PAD_LEN (R8). -/
def Config.frameLen (c : Config) : Nat := 6 + c.padLen.bytes

/-- CODE_MAX = 2^CODE_BITS - 1 (R8). -/
def Config.codeMax (c : Config) : Nat := 2 ^ c.codeBits - 1

/-- The bus address of a register index where the port stands at UTB_BASE on a byte-addressed bus
(20_memory.md R51, R60). No rule of the block reads it. -/
def Config.busAddress (c : Config) (idx : RegIdx) : Nat := c.utbBase + 4 * idx.toNat

/-- A stage-2 factor NUM / DEN that is legal beside the reference voltage and full scale: 52812 is the
largest stage-1 result at the values of R7 (R103). -/
structure StageTwo where
  num : Nat := 1
  den : Nat := 1
  den_pos : 1 ≤ den := by decide
  fits : (52812 * num) / den < 2 ^ 32 := by decide
deriving DecidableEq, Repr, Inhabited

/-- The board's current factor I_NUM / I_DEN: OPEN in the spec (R8, D5), so nothing is known of it but
that it is legal. DESIGN CHOICE, log entry 2. -/
opaque Config.boardCurrent : StageTwo

/-- The board's voltage factor V_NUM / V_DEN: OPEN in the spec (R8, D5). DESIGN CHOICE, log entry 2. -/
opaque Config.boardVoltage : StageTwo

/-- UTB_BASE: OPEN in the spec (20_memory.md R60, D21). DESIGN CHOICE, log entry 2. -/
opaque Config.boardBase : Nat

/-- The parameters right after power-on: the defaults of R7 and R8, and the open values. -/
def Params.reference : Params where
  iNum := Config.boardCurrent.num
  iDen := Config.boardCurrent.den
  vNum := Config.boardVoltage.num
  vDen := Config.boardVoltage.den
  utbBase := Config.boardBase

theorem Params.reference_legal : Params.reference.legal = true := by
  simp only [legal, maxMillivolts, reference, Bool.and_eq_true]
  exact ⟨⟨⟨⟨⟨⟨by decide, by decide⟩, by decide⟩, decide_eq_true Config.boardCurrent.den_pos⟩,
    decide_eq_true Config.boardVoltage.den_pos⟩, decide_eq_true Config.boardCurrent.fits⟩,
    decide_eq_true Config.boardVoltage.fits⟩

/-- The reference configuration. -/
def Config.reference : Config := ⟨Params.reference, Params.reference_legal⟩

end Sys2Proof
end

