-- ==== Sys2Proof/Syntax.lean ====
section
/-! DEFINITION. The commands and events of the block (30_encoding.md R72, R78), the port accesses that
carry commands, the turns of the agents, and the pseudo-instructions. -/

namespace Sys2Proof

/-- One constructor per row of spec/opcode_table.json: the ten commands of R72, then the five events of
R78. -/
inductive Instr where
  | nop
  | consume
  | convI
  | convV
  | convIImm (code : Code)
  | convVImm (code : Code)
  | build
  | startSend
  | crcSpan (n : Code)
  | wfi
  | evtTrig
  | evtConvDone (codeI codeV : Code)
  | evtByteReady
  | evtTxTake
  | evtFault
deriving DecidableEq, Repr

/-- A command is issued through CMD; an event is driven by a collaborator (00_scope.md R3). -/
def Instr.isCommand : Instr → Bool
  | .nop => true
  | .consume => true
  | .convI => true
  | .convV => true
  | .convIImm _ => true
  | .convVImm _ => true
  | .build => true
  | .startSend => true
  | .crcSpan _ => true
  | .wfi => true
  | .evtTrig => false
  | .evtConvDone _ _ => false
  | .evtByteReady => false
  | .evtTxTake => false
  | .evtFault => false

/-- The event record (EV, PAYLOAD) of R78. -/
structure EventRecord where
  ev : BitVec 4
  payload : Word
deriving DecidableEq, Repr

/-- What an encoding is: a word for CMD (R70) or an event record (R78). -/
inductive Encoded where
  | command (w : Word)
  | event (r : EventRecord)
deriving DecidableEq, Repr

/-- An access of the register port: RegRead or RegWrite (20_memory.md R52, R53). -/
inductive Access where
  | read (idx : RegIdx)
  | write (idx : RegIdx) (w : Word)
deriving DecidableEq, Repr

/-- One turn in the total order of all agents' transitions (00_scope.md R16, 20_memory.md R62). -/
inductive Turn where
  /-- the consumer issues its next port access, if it can -/
  | consumer
  /-- a collaborator drives an event record -/
  | event (r : EventRecord)
  /-- an observer other than the consumer reads a register (R52) -/
  | observe (idx : RegIdx)
  /-- the environment asserts rst (70_reset_and_hazards.md R240) -/
  | reset
deriving DecidableEq, Repr

/-- The pseudo-instructions of R80. -/
inductive Pseudo where
  | convBoth
  | frameSend
  | crcFrame
deriving DecidableEq, Repr

/-- The expansions of R80, in order; other agents' turns may come between the commands. -/
def Pseudo.expand : Pseudo → List Instr
  | .convBoth => [.convI, .convV]
  | .frameSend => [.build, .startSend]
  | .crcFrame => [.crcSpan 5#16]

end Sys2Proof
end

