-- ==== Sys2Proof/WellFormed.lean ====
section
/-! DEFINITION. The one operand check of the command set (30_encoding.md R73, R75). -/

namespace Sys2Proof

/-- CRC_SPAN's byte count is at most FRAME_LEN; every other operand value is legal (R71, R73). -/
def Instr.wellFormed (frameLen : Nat) : Instr → Bool
  | .crcSpan n => decide (n.toNat ≤ frameLen)
  | .nop => true
  | .consume => true
  | .convI => true
  | .convV => true
  | .convIImm _ => true
  | .convVImm _ => true
  | .build => true
  | .startSend => true
  | .wfi => true
  | .evtTrig => true
  | .evtConvDone _ _ => true
  | .evtByteReady => true
  | .evtTxTake => true
  | .evtFault => true

end Sys2Proof
end

