-- ==== Sys2Proof/Decode.lean ====
section
/-! DEFINITION. Decoding of command words (30_encoding.md R70 to R77) and event records (R78), the
encoder, and the opcode table of R73. -/

namespace Sys2Proof

/-- Why a word or an event record is no instruction (R75, R78). -/
inductive DecodeError where
  /-- RSV is not 0x00 -/
  | reservedNotZero
  /-- OP is in 0x0A..0xFF -/
  | unknownOpcode
  /-- IMM16 is not 0 on a command that takes no operand -/
  | operandNotZero
  /-- CRC_SPAN with IMM16 > FRAME_LEN -/
  | spanTooLong
  /-- an EV code marked (none) in R78 -/
  | unknownEvent
  /-- a PAYLOAD other than 0 on an event that carries none -/
  | payloadNotZero
deriving DecidableEq, Repr

/-- OP, bits 7:0 (R70). -/
def opField (w : Word) : Byte := w.extractLsb' 0 8

/-- RSV, bits 15:8 (R70). -/
def rsvField (w : Word) : Byte := w.extractLsb' 8 8

/-- IMM16, bits 31:16, taken as is (R70, R71). -/
def immField (w : Word) : Code := w.extractLsb' 16 16

/-- A command that takes no operand needs IMM16 = 0 (R71, R74). -/
def noOperand (imm : Code) (i : Instr) : Except DecodeError Instr :=
  if imm = 0#16 then .ok i else .error .operandNotZero

/-- The decode of R74 on the three fields of a word. -/
def decodeFields (frameLen : Nat) (rsv : Byte) (op : Nat) (imm : Code) : Except DecodeError Instr :=
  if rsv ≠ 0#8 then .error .reservedNotZero
  else
    match op with
    | 0x00 => noOperand imm .nop
    | 0x01 => noOperand imm .consume
    | 0x02 => noOperand imm .convI
    | 0x03 => noOperand imm .convV
    | 0x04 => .ok (.convIImm imm)
    | 0x05 => .ok (.convVImm imm)
    | 0x06 => noOperand imm .build
    | 0x07 => noOperand imm .startSend
    | 0x08 => if imm.toNat ≤ frameLen then .ok (.crcSpan imm) else .error .spanTooLong
    | 0x09 => noOperand imm .wfi
    | _ => .error .unknownOpcode

/-- The decode of R74: every word has exactly one outcome. -/
def decodeCommand (frameLen : Nat) (w : Word) : Except DecodeError Instr :=
  decodeFields frameLen (rsvField w) (opField w).toNat (immField w)

/-- An event that carries no payload needs PAYLOAD = 0 (R78). -/
def noPayload (r : EventRecord) (i : Instr) : Except DecodeError Instr :=
  if r.payload = 0#32 then .ok i else .error .payloadNotZero

/-- code_i = PAYLOAD[15:0] (44_handoff.md R188). -/
def codeIField (payload : Word) : Code := payload.extractLsb' 0 16

/-- code_v = PAYLOAD[31:16] (44_handoff.md R188). -/
def codeVField (payload : Word) : Code := payload.extractLsb' 16 16

/-- The event records of R78. -/
def decodeEvent (r : EventRecord) : Except DecodeError Instr :=
  match r.ev.toNat with
  | 0x1 => noPayload r .evtTrig
  | 0x2 => .ok (.evtConvDone (codeIField r.payload) (codeVField r.payload))
  | 0x3 => noPayload r .evtByteReady
  | 0x4 => noPayload r .evtTxTake
  | 0x5 => noPayload r .evtFault
  | _ => .error .unknownEvent

/-- The instruction an encoding stands for, under a configuration's FRAME_LEN. -/
def decode (frameLen : Nat) : Encoded → Except DecodeError Instr
  | .command w => decodeCommand frameLen w
  | .event r => decodeEvent r

/-- word = {IMM16, RSV, OP} with RSV = 0x00 (R70). -/
def commandWord (op : Byte) (imm : Code) : Word := imm ++ (0x00#8 ++ op : Code)

/-- An event record with no payload (R78). -/
def plainEvent (ev : BitVec 4) : Encoded := .event ⟨ev, 0#32⟩

/-- The encoder: the words of R73 and the records of R78. -/
def encode : Instr → Encoded
  | .nop => .command (commandWord 0x00#8 0#16)
  | .consume => .command (commandWord 0x01#8 0#16)
  | .convI => .command (commandWord 0x02#8 0#16)
  | .convV => .command (commandWord 0x03#8 0#16)
  | .convIImm code => .command (commandWord 0x04#8 code)
  | .convVImm code => .command (commandWord 0x05#8 code)
  | .build => .command (commandWord 0x06#8 0#16)
  | .startSend => .command (commandWord 0x07#8 0#16)
  | .crcSpan n => .command (commandWord 0x08#8 n)
  | .wfi => .command (commandWord 0x09#8 0#16)
  | .evtTrig => plainEvent 0x1#4
  | .evtConvDone codeI codeV => .event ⟨0x2#4, codeV ++ codeI⟩
  | .evtByteReady => plainEvent 0x3#4
  | .evtTxTake => plainEvent 0x4#4
  | .evtFault => plainEvent 0x5#4

/-- A row of the table of R73: a word belongs to it when `word &&& mask = pattern`; `spanRow` marks the
one row whose IMM16 must also be at most FRAME_LEN. -/
structure OpcodeRow where
  pattern : Word
  mask : Word
  spanRow : Bool
deriving DecidableEq, Repr

/-- The table of R73. -/
def opcodeRows : List OpcodeRow :=
  [ ⟨0x00000000#32, 0xFFFFFFFF#32, false⟩
  , ⟨0x00000001#32, 0xFFFFFFFF#32, false⟩
  , ⟨0x00000002#32, 0xFFFFFFFF#32, false⟩
  , ⟨0x00000003#32, 0xFFFFFFFF#32, false⟩
  , ⟨0x00000004#32, 0x0000FFFF#32, false⟩
  , ⟨0x00000005#32, 0x0000FFFF#32, false⟩
  , ⟨0x00000006#32, 0xFFFFFFFF#32, false⟩
  , ⟨0x00000007#32, 0xFFFFFFFF#32, false⟩
  , ⟨0x00000008#32, 0x0000FFFF#32, true⟩
  , ⟨0x00000009#32, 0xFFFFFFFF#32, false⟩ ]

/-- A word matches a row, its extra condition included (R73). -/
def OpcodeRow.accepts (row : OpcodeRow) (frameLen : Nat) (w : Word) : Bool :=
  (w &&& row.mask == row.pattern) && (!row.spanRow || decide ((w >>> 16).toNat ≤ frameLen))

/-- The event record of a table word: EV is its bits 3:0 and PAYLOAD the 32 bits above them.
DESIGN CHOICE, log entry 8: the spec numbers no bits of a whole record. -/
def tableRecord (w : Nat) : EventRecord := ⟨BitVec.ofNat 4 w, BitVec.ofNat 32 (w / 16)⟩

/-- Whether the opcode table's width is that of an event record: its rows give EV alone, one byte; a
record with its payload has more than 32 bits. Command rows have up to 32 bits (log entry 8). -/
def isEventWidth (nbits : Nat) : Bool := decide (nbits ≤ 8) || decide (32 < nbits)

/-- The encoding that a word of spec/opcode_table.json stands for, every bit above nbits being 0. -/
def tableEncoded (nbits w : Nat) : Encoded :=
  if isEventWidth nbits then .event (tableRecord w) else .command (BitVec.ofNat 32 w)

/-- The instruction the decoder reads from a table word, under the reference configuration's
FRAME_LEN. -/
def decodeTableWord (nbits w : Nat) : Option Instr :=
  (decode Config.reference.frameLen (tableEncoded nbits w)).toOption

end Sys2Proof
end

