-- ==== Sys2Proof/Machine/State.lean ====
section
/-! DEFINITION. The state of the block, its collaborators and the inputs still to come, as plain data
(10_state.md R20 to R42), the reasons a step stops, and the state after reset. -/

namespace Sys2Proof.Machine

/-- A byte memory in canonical form: addresses strictly rising, no cell equal to what an unlisted address
reads as, which is 0x00 (10_state.md R26; log entry 7). -/
abbrev Memory := List Host.Cell

/-- TX_STATE (R27). -/
inductive TxState where
  | idle
  | sending
deriving DecidableEq, Repr

/-- A strobe of an output port of 60_exceptions.md R223. -/
inductive Output where
  /-- conv_start: an accepted EVT_TRIG -/
  | convStart
  /-- tx_data with tx_valid: emit(b) -/
  | txData (b : Byte)
  /-- reg_rdata: the value of a register read -/
  | regData (w : Word)
  /-- wake: the end of a consumer wait -/
  | wake
deriving DecidableEq, Repr

/-- The error and halt causes of 60_exceptions.md R211. -/
inductive ErrorCause where
  | illegalCommand
  | buildWhileSending
  | fault
deriving DecidableEq, Repr

/-- Why the machine stops with a fault. -/
inductive Fault where
  /-- Raised by EVT_BYTE_READY when TX_CURSOR points beyond PKT[7], a byte the spec gives no packet buffer
  (10_state.md R26). Safe: no run reaches such a state (43_transmitter.md R165), and the model stops. -/
  | noSuchPacketByte
deriving DecidableEq, Repr

/-- Why a step has no meaning. -/
inductive Refusal where
  /-- An instruction whose meaning is not written: no arm of exec answers so. Safe: the model stops. -/
  | notModelled (mnemonic : String)
  /-- Raised by a turn whose event record has an EV code that is no event: 30_encoding.md R78 refuses it.
  Safe: the model stops. -/
  | unknownEvent (ev : BitVec 4)
  /-- Raised by a turn whose event record carries a payload that must be 0: 30_encoding.md R78 refuses it.
  Safe: the model stops. -/
  | payloadNotZero (ev : BitVec 4) (payload : Word)
deriving DecidableEq, Repr

/-- The whole state. Everything above `outputs` is the spec's (R41); the rest is the model's own. -/
structure State where
  /-- the build-time configuration: no transition writes it (R39, R40; log entry 1) -/
  cfg : Config
  /-- RAW_I (R22) -/
  rawI : Code
  /-- RAW_V (R22) -/
  rawV : Code
  /-- SAMPLE_I (R23) -/
  sampleI : Code
  /-- SAMPLE_V (R23) -/
  sampleV : Code
  /-- CUR_UA (R24) -/
  curUa : Word
  /-- VOLT_MV (R24) -/
  voltMv : Word
  /-- CRC_OUT (R25) -/
  crcOut : Byte
  /-- PKT[0..7] (R26) -/
  pkt : Memory
  /-- TX_STATE (R27) -/
  txState : TxState
  /-- TX_CURSOR (R28) -/
  txCursor : BitVec 4
  /-- TXIE (R29) -/
  txie : Bool
  /-- READY (R30) -/
  ready : Bool
  /-- CONV_BUSY (R31) -/
  convBusy : Bool
  /-- CONSUMED (R32) -/
  consumed : Bool
  /-- WAITING, hidden (R33) -/
  waiting : Bool
  /-- ERR_ILLEGAL, sticky (R34) -/
  errIllegal : Bool
  /-- ERR_BUILD_BUSY, sticky (R34) -/
  errBuildBusy : Bool
  /-- HALTED (R35) -/
  halted : Bool
  /-- the transport's TX_EMPTY (R36) -/
  txEmpty : Bool
  /-- the transport's TX_HOLD (R36) -/
  txHold : Byte
  /-- TX_LINE: the bytes put on the line, in order (R36) -/
  txLine : List Byte
  /-- the strobes of the output ports, oldest first: an observation no rule reads (log entry 6) -/
  outputs : List Output
  /-- the consumer's port accesses in program order (log entry 4) -/
  program : List Access
  /-- how many of them the consumer has issued since reset (log entry 4) -/
  progPos : Nat
  /-- the accesses the restarted program issues after each reset to come, the next reset's first
  (log entry 18) -/
  laterRuns : List (List Access)
  /-- the turns still to come, the first to come first (log entry 3) -/
  schedule : List Turn
deriving DecidableEq, Repr

/-- The state after reset under a configuration (10_state.md R41, 70_reset_and_hazards.md R240). -/
def State.resetWith (c : Config) : State where
  cfg := c
  rawI := 0x0000#16
  rawV := 0x0000#16
  sampleI := 0x0000#16
  sampleV := 0x0000#16
  curUa := 0x00000000#32
  voltMv := 0x00000000#32
  crcOut := 0x00#8
  pkt := []
  txState := .idle
  txCursor := 0#4
  txie := false
  ready := false
  convBusy := false
  consumed := false
  waiting := false
  errIllegal := false
  errBuildBusy := false
  halted := false
  txEmpty := true
  txHold := 0x00#8
  txLine := []
  outputs := []
  program := []
  progPos := 0
  laterRuns := []
  schedule := []

/-- The machine right after reset, under the reference configuration (log entries 2 and 4). -/
def State.reset : State := State.resetWith Config.reference

end Sys2Proof.Machine
end

