-- ==== Sys2Proof/Machine/Ops.lean ====
section
/-! DEFINITION. The shared operations: the packet bytes, the guards, the interface primitives of
00_scope.md R13, recording an error (60_exceptions.md R210, R211), the agents' bookkeeping, and reset
(70_reset_and_hazards.md R240). -/

namespace Sys2Proof.Machine

/-- The outcome of a transition. -/
abbrev Outcome := Host.Outcome State Fault Refusal

/-! ### Byte memory -/

/-- The byte at an address: an unlisted one reads 0x00 (10_state.md R26). -/
def memRead : Memory → Nat → Byte
  | [], _ => 0x00#8
  | (k, v) :: rest, a => if a = k then v else memRead rest a

/-- Puts a cell in front, unless it holds what an unlisted address reads as. -/
def memCons (a : Nat) (b : Byte) (m : Memory) : Memory :=
  if b = 0x00#8 then m else (a, b) :: m

/-- Stores one byte, keeping the canonical form: a stored 0x00 lists no cell. -/
def memWrite : Memory → Nat → Byte → Memory
  | [], a, b => memCons a b []
  | (k, v) :: rest, a, b =>
    if a < k then memCons a b ((k, v) :: rest)
    else if a = k then memCons a b rest
    else (k, v) :: memWrite rest a b

/-- Stores bytes at rising addresses from `a` on. -/
def memWriteList : Memory → Nat → List Byte → Memory
  | m, _, [] => m
  | m, a, b :: bs => memWriteList (memWrite m a b) (a + 1) bs

/-- The n bytes from address 0 on. -/
def memTake (m : Memory) (n : Nat) : List Byte := (List.range n).map (memRead m)

/-- The number of bytes of the packet buffer PKT[0..7] (R26). -/
def pktSize : Nat := 8

/-- PKT[a], or `none` where the buffer has no such byte. -/
def pktByte? (s : State) (a : Nat) : Option Byte :=
  if a < pktSize then some (memRead s.pkt a) else none

/-- Every address of the list lies at or above `lo`, strictly rising, and no cell holds 0x00. -/
def Memory.wfFrom : Nat → Memory → Bool
  | _, [] => true
  | lo, (k, v) :: rest => decide (lo ≤ k) && decide (v ≠ 0x00#8) && Memory.wfFrom (k + 1) rest

/-- The canonical form: addresses strictly rising, no cell equal to what an unlisted address reads as. -/
def Memory.wf (m : Memory) : Bool := Memory.wfFrom 0 m

/-! ### Guards -/

/-- Whether a transition has a step: a rule whose guard is false has none (00_scope.md R14). A command
needs WAITING = 0 (44_handoff.md R181), START_SEND its own guard too (43_transmitter.md R161);
EVT_BYTE_READY and EVT_TX_TAKE have the guards of R163 and R164; the other events are always deliverable
(R187, R188, 60_exceptions.md R214). -/
def enabled : Instr → State → Bool
  | .nop, s => !s.waiting
  | .consume, s => !s.waiting
  | .convI, s => !s.waiting
  | .convV, s => !s.waiting
  | .convIImm _, s => !s.waiting
  | .convVImm _, s => !s.waiting
  | .build, s => !s.waiting
  | .startSend, s => !s.waiting && (s.halted || s.txState == .sending || s.txEmpty)
  | .crcSpan _, s => !s.waiting
  | .wfi, s => !s.waiting
  | .evtTrig, _ => true
  | .evtConvDone _ _, _ => true
  | .evtByteReady, s => s.txie && s.txEmpty
  | .evtTxTake, s => !s.txEmpty
  | .evtFault, _ => true

/-- Takes the transition where its guard holds; elsewhere there is no step, and the state stays as it is
(log entry 5). -/
def whenEnabled (i : Instr) (s : State) (effect : State → Outcome) : Outcome :=
  if enabled i s then effect s else .next s

/-- `if HALTED == 1: return`: while halted, a command or UTB event is taken with no effect
(60_exceptions.md R215). -/
def unlessHalted (s : State) (effect : State → Outcome) : Outcome :=
  if s.halted then .next s else effect s

/-! ### Interface primitives -/

/-- emit(b): presents b to the transport, whose TX_EMPTY becomes 0 (R13, R36). -/
def emit (b : Byte) (s : State) : State :=
  { s with txEmpty := false, txHold := b, outputs := s.outputs ++ [.txData b] }

/-- conv_start(): one pulse to the conversion collaborator (R13). -/
def convStart (s : State) : State :=
  { s with outputs := s.outputs ++ [.convStart] }

/-- wake(): ends a pending consumer wait; with WAITING = 0 it changes nothing (44_handoff.md R185). -/
def wake (s : State) : State :=
  { s with waiting := false, outputs := if s.waiting then s.outputs ++ [.wake] else s.outputs }

/-- The value of a register read on reg_rdata (60_exceptions.md R223). -/
def putRegData (w : Word) (s : State) : State :=
  { s with outputs := s.outputs ++ [.regData w] }

/-! ### Errors: the block has no trap, and this takes the place of taking an exception -/

/-- `raise E`: sets the sticky bit of the cause and transfers no control; nothing is saved, no mode
changes, and there is no return (60_exceptions.md R210, R211, R218). -/
def raise (e : ErrorCause) (s : State) : State :=
  { s with
    errIllegal := s.errIllegal || e == .illegalCommand
    errBuildBusy := s.errBuildBusy || e == .buildWhileSending
    halted := s.halted || e == .fault }

/-! ### The transmission engine's three registers -/

/-- START_SEND's entry into Sending: cursor 1, notifications on (43_transmitter.md R161). -/
def enterSending (s : State) : State :=
  { s with txState := .sending, txCursor := 1#4, txie := true }

/-- The return to Idle: cursor 0, notifications off (43_transmitter.md R163). -/
def enterIdle (s : State) : State :=
  { s with txState := .idle, txCursor := 0#4, txie := false }

/-! ### The agents' bookkeeping and reset -/

/-- One turn of the schedule is over. -/
def dropTurn (s : State) : State := { s with schedule := s.schedule.tail }

/-- The consumer has issued its current access. -/
def nextAccess (s : State) : State := { s with progPos := s.progPos + 1 }

/-- Reset: every piece of state takes its value of 10_state.md R41, whatever the state; the configuration
stays (R242), the consumer restarts its program from the start (70_reset_and_hazards.md R240), and the
turns still to come stay to come (log entry 4). The restarted program issues the next of `laterRuns`;
where that lists none, the same accesses again (DESIGN CHOICE, log entry 18). -/
def applyReset (s : State) : State :=
  { State.resetWith s.cfg with
    program := s.laterRuns.headD s.program
    laterRuns := s.laterRuns.tail
    schedule := s.schedule }

end Sys2Proof.Machine
end

