-- ==== Sys2Proof/Machine/Operands.lean ====
section
/-! DEFINITION. What the commands read: the field values of BUILD (42_framer.md R142) and the packet span
of CRC_SPAN (41_checksum.md R123). The immediate and payload fields are taken by the decoder (R71, R78). -/

namespace Sys2Proof.Machine

/-- The current field cf of R142: the debug value, the raw code, or the low 16 bits of CUR_UA. -/
def currentField (s : State) : Code :=
  if s.cfg.fixedDebugFields then debugCurrent
  else if s.cfg.sendRaw then s.sampleI
  else s.curUa.setWidth 16

/-- The voltage field vf of R142. -/
def voltageField (s : State) : Code :=
  if s.cfg.fixedDebugFields then debugVoltage
  else if s.cfg.sendRaw then s.sampleV
  else s.voltMv.setWidth 16

/-- f[7:0] (20_memory.md R56). -/
def lowByte (f : Code) : Byte := f.extractLsb' 0 8

/-- f[15:8] (20_memory.md R56). -/
def highByte (f : Code) : Byte := f.extractLsb' 8 8

/-- PKT[0..n-1], the span of CRC_SPAN (R123). -/
def pktSpan (s : State) (n : Nat) : List Byte := memTake s.pkt n

end Sys2Proof.Machine
end

