-- ==== Sys2Proof/Machine/Checksum.lean ====
section
/-! DEFINITION. The checksum generator: crc8 (41_checksum.md R120) and CRC_SPAN (R123). -/

namespace Sys2Proof.Machine

/-- One shift of R120, MSB first. -/
def crcShift (c : Byte) : Byte :=
  if c.msb then (c <<< 1) ^^^ crcPoly else c <<< 1

/-- n shifts. -/
def crcShifts : Nat → Byte → Byte
  | 0, c => c
  | n + 1, c => crcShifts n (crcShift c)

/-- One byte of the span: XOR, then 8 shifts (R120). -/
def crcByte (c b : Byte) : Byte := crcShifts 8 (c ^^^ b)

/-- The register after a span, from CRC_INIT (R120, R121). -/
def crcRegister (bytes : List Byte) : Byte := bytes.foldl crcByte crcInit

/-- crc8 (R120): the register XOR CRC_XOROUT. -/
def crc8 (xorOut : Byte) (bytes : List Byte) : Byte := crcRegister bytes ^^^ xorOut

/-- CRC_SPAN (R123): CRC_OUT <- crc8(PKT[0..n-1]). A count above FRAME_LEN is an illegal word (R75,
log entry 9). -/
def execCrcSpan (n : Code) (s : State) : Outcome :=
  whenEnabled (.crcSpan n) s fun s => unlessHalted s fun s =>
    if n.toNat ≤ s.cfg.frameLen then
      .next { s with crcOut := crc8 s.cfg.crcXorOut (pktSpan s n.toNat) }
    else .next (raise .illegalCommand s)

end Sys2Proof.Machine
end

