-- ==== Sys2Proof/Machine/Converter.lean ====
section
/-! DEFINITION. The unit converter: CONV_I, CONV_V, CONV_I_IMM, CONV_V_IMM (40_converter.md). -/

namespace Sys2Proof.Machine

/-- Stage 1: code to millivolts at the converter input, one floor division (R101). -/
def stageOne (c : Config) (code : Code) : Nat := (code.toNat * c.vrefMv) / c.fullScale

/-- rawToCurrent (R101): two stages, each ending in one floor division (R100). -/
def rawToCurrent (c : Config) (code : Code) : Nat := (stageOne c code * c.iNum) / c.iDen

/-- rawToVoltage (R102). -/
def rawToVoltage (c : Config) (code : Code) : Nat := (stageOne c code * c.vNum) / c.vDen

/-- CUR_UA <- trunc_32(rawToCurrent(code)) (R105, R107). -/
def setCurrent (code : Code) (s : State) : State :=
  { s with curUa := BitVec.ofNat 32 (rawToCurrent s.cfg code) }

/-- VOLT_MV <- trunc_32(rawToVoltage(code)) (R106, R108). -/
def setVoltage (code : Code) (s : State) : State :=
  { s with voltMv := BitVec.ofNat 32 (rawToVoltage s.cfg code) }

/-- CONV_I (R105). -/
def execConvI (s : State) : Outcome :=
  whenEnabled .convI s fun s => unlessHalted s fun s => .next (setCurrent s.sampleI s)

/-- CONV_V (R106). -/
def execConvV (s : State) : Outcome :=
  whenEnabled .convV s fun s => unlessHalted s fun s => .next (setVoltage s.sampleV s)

/-- CONV_I_IMM (R107). -/
def execConvIImm (code : Code) (s : State) : Outcome :=
  whenEnabled (.convIImm code) s fun s => unlessHalted s fun s => .next (setCurrent code s)

/-- CONV_V_IMM (R108). -/
def execConvVImm (code : Code) (s : State) : Outcome :=
  whenEnabled (.convVImm code) s fun s => unlessHalted s fun s => .next (setVoltage code s)

end Sys2Proof.Machine
end

