-- ==== Sys2Proof/Machine/Framer.lean ====
section
/-! DEFINITION. The packet framer: the frame of 42_framer.md R140 and BUILD (R141). -/

namespace Sys2Proof.Machine

/-- Bytes 0 to 4 of the frame: marker, voltage, current, little-endian (R140). -/
def frameHead (cf vf : Code) : List Byte :=
  [startMarker, lowByte vf, highByte vf, lowByte cf, highByte cf]

/-- The padding bytes, present only if PAD_LEN = 2 (R140). PAD_BYTE is a parameter (log entry 11). -/
def framePad (c : Config) : List Byte := List.replicate c.padLen.bytes c.padByte

/-- The whole frame, FRAME_LEN bytes: the checksum covers bytes 0 to 4 alone (R140). -/
def frameBytes (c : Config) (cf vf : Code) : List Byte :=
  frameHead cf vf ++ [crc8 c.crcXorOut (frameHead cf vf)] ++ framePad c

/-- Writes the frame into PKT[0..FRAME_LEN-1] in one transition (R141). -/
def storeFrame (s : State) : State :=
  { s with pkt := memWriteList s.pkt 0 (frameBytes s.cfg (currentField s) (voltageField s)) }

/-- `raise BuildWhileSending()` where TX_STATE = Sending (R141, 60_exceptions.md R212). -/
def markBuildBusy (s : State) : State :=
  if s.txState = .sending then raise .buildWhileSending s else s

/-- BUILD (R141): under the hazard the error is recorded and the build still happens. -/
def execBuild (s : State) : Outcome :=
  whenEnabled .build s fun s => unlessHalted s fun s => .next (storeFrame (markBuildBusy s))

end Sys2Proof.Machine
end

