-- ==== Sys2Proof/Machine/Halt.lean ====
section
/-! DEFINITION. The unrecoverable hardware fault: EVT_FAULT (60_exceptions.md R214). -/

namespace Sys2Proof.Machine

/-- EVT_FAULT (R214): not maskable; a second one changes nothing. -/
def execEvtFault (s : State) : Outcome :=
  whenEnabled .evtFault s fun s => .next (raise .fault s)

end Sys2Proof.Machine
end

