-- ==== Sys2Proof/Machine/Handoff.lean ====
section
/-! DEFINITION. The sampling scheduler and handoff: NOP, CONSUME, WFI, EVT_TRIG, EVT_CONV_DONE
(44_handoff.md). -/

namespace Sys2Proof.Machine

/-- NOP (R180): every piece of state is the same before and after. -/
def execNop (s : State) : Outcome := whenEnabled .nop s fun s => .next s

/-- CONSUME (R182): test, clear and snapshot in one transition. -/
def execConsume (s : State) : Outcome :=
  whenEnabled .consume s fun s => unlessHalted s fun s =>
    if s.ready then
      .next { s with consumed := true, sampleI := s.rawI, sampleV := s.rawV, ready := false }
    else .next { s with consumed := false }

/-- WFI (R184). -/
def execWfi (s : State) : Outcome :=
  whenEnabled .wfi s fun s => unlessHalted s fun s => .next { s with waiting := true }

/-- EVT_TRIG (R187): a trigger while a conversion runs starts nothing; it still wakes the consumer. -/
def execEvtTrig (s : State) : Outcome :=
  whenEnabled .evtTrig s fun s => unlessHalted s fun s =>
    if s.convBusy then .next (wake s)
    else .next (wake (convStart { s with convBusy := true }))

/-- EVT_CONV_DONE (R188): a completion with no started conversion is ignored and does not wake. -/
def execEvtConvDone (codeI codeV : Code) (s : State) : Outcome :=
  whenEnabled (.evtConvDone codeI codeV) s fun s => unlessHalted s fun s =>
    if s.convBusy then
      .next (wake { s with rawI := codeI, rawV := codeV, ready := true, convBusy := false })
    else .next s

end Sys2Proof.Machine
end

