-- ==== Sys2Proof/Machine/Transmitter.lean ====
section
/-! DEFINITION. The serial transmission engine: START_SEND, EVT_BYTE_READY, EVT_TX_TAKE
(43_transmitter.md). -/

namespace Sys2Proof.Machine

/-- START_SEND (R161): dropped while Sending; its guard holds it while TX_EMPTY = 0. -/
def execStartSend (s : State) : Outcome :=
  whenEnabled .startSend s fun s => unlessHalted s fun s =>
    if s.txState = .sending then .next s
    else .next (enterSending (emit (memRead s.pkt 0) s))

/-- TX_CURSOR <- TX_CURSOR + 1, and the return to Idle where that reaches FRAME_LEN (R163). -/
def advanceCursor (s : State) : State :=
  if (s.txCursor + 1#4).toNat = s.cfg.frameLen then enterIdle s
  else { s with txCursor := s.txCursor + 1#4 }

/-- EVT_BYTE_READY (R163). A cursor beyond PKT[7] has no byte to emit (log entry 7). -/
def execEvtByteReady (s : State) : Outcome :=
  whenEnabled .evtByteReady s fun s => unlessHalted s fun s =>
    match pktByte? s s.txCursor.toNat with
    | some b => .next (wake (advanceCursor (emit b s)))
    | none => .fault .noSuchPacketByte

/-- EVT_TX_TAKE (R164): a step of the transport, taken whether or not HALTED = 1. -/
def execEvtTxTake (s : State) : Outcome :=
  whenEnabled .evtTxTake s fun s =>
    .next { s with txLine := s.txLine ++ [s.txHold], txEmpty := true }

end Sys2Proof.Machine
end

