-- ==== Sys2Proof/Machine/Dispatch.lean ====
section
/-! DEFINITION. One arm per instruction: the ten commands of 30_encoding.md R72 and the five events of
R78. -/

namespace Sys2Proof.Machine

def exec (i : Instr) (s : State) : Host.Outcome State Fault Refusal :=
  match i with
  | .nop => Sys2Proof.Machine.execNop s
  | .consume => Sys2Proof.Machine.execConsume s
  | .convI => Sys2Proof.Machine.execConvI s
  | .convV => Sys2Proof.Machine.execConvV s
  | .convIImm code => Sys2Proof.Machine.execConvIImm code s
  | .convVImm code => Sys2Proof.Machine.execConvVImm code s
  | .build => Sys2Proof.Machine.execBuild s
  | .startSend => Sys2Proof.Machine.execStartSend s
  | .crcSpan n => Sys2Proof.Machine.execCrcSpan n s
  | .wfi => Sys2Proof.Machine.execWfi s
  | .evtTrig => Sys2Proof.Machine.execEvtTrig s
  | .evtConvDone codeI codeV => Sys2Proof.Machine.execEvtConvDone codeI codeV s
  | .evtByteReady => Sys2Proof.Machine.execEvtByteReady s
  | .evtTxTake => Sys2Proof.Machine.execEvtTxTake s
  | .evtFault => Sys2Proof.Machine.execEvtFault s

end Sys2Proof.Machine
end

