-- ==== Sys2Proof/Machine/Flags.lean ====
section
/-! DEFINITION. The words the register port shows: STATUS (10_state.md R38), CONFIG (R39), PKT_W0 and
PKT_W1 (20_memory.md R55), and RegRead (R51, R52). -/

namespace Sys2Proof.Machine

/-- A flag at a bit of a word. -/
def flagAt (k : Nat) (b : Bool) : Word := if b then 1#32 <<< k else 0#32

/-- The STATUS bit that records an error cause, which is also its cause code (60_exceptions.md R211). -/
def causeBit : ErrorCause → Nat
  | .illegalCommand => 8
  | .buildWhileSending => 9
  | .fault => 15

/-- TX_BUSY: 1 when TX_STATE = Sending (R38). -/
def txBusy (s : State) : Bool := s.txState == .sending

/-- STATUS (R38): every bit not named reads 0. -/
def statusWord (s : State) : Word :=
  flagAt 0 s.ready ||| flagAt 1 (txBusy s) ||| flagAt 2 s.txie ||| flagAt 3 s.convBusy
    ||| flagAt 4 s.consumed ||| flagAt 5 s.txEmpty
    ||| flagAt (causeBit .illegalCommand) s.errIllegal
    ||| flagAt (causeBit .buildWhileSending) s.errBuildBusy
    ||| flagAt (causeBit .fault) s.halted

/-- CONFIG (R39): SEND_RAW, PAD, FIXED_DEBUG, and FRAME_LEN in bits 11:8. -/
def configWord (c : Config) : Word :=
  flagAt 0 c.sendRaw ||| flagAt 1 (c.padLen == .two) ||| flagAt 2 c.fixedDebugFields
    ||| (BitVec.ofNat 32 c.frameLen <<< 8)

/-- Four packet bytes from address `a` on, the lowest address in bits 7:0 (20_memory.md R55). -/
def packWord (m : Memory) (a : Nat) : Word :=
  (memRead m (a + 3) ++ memRead m (a + 2) : Code) ++ (memRead m (a + 1) ++ memRead m a : Code)

/-- RegRead(idx) (R51, R52): CMD and the reserved indices read 0. -/
def regRead (s : State) (idx : RegIdx) : Word :=
  match idx.toNat with
  | 0 => 0#32
  | 1 => statusWord s
  | 2 => s.rawI.setWidth 32
  | 3 => s.rawV.setWidth 32
  | 4 => s.sampleI.setWidth 32
  | 5 => s.sampleV.setWidth 32
  | 6 => s.curUa
  | 7 => s.voltMv
  | 8 => s.crcOut.setWidth 32
  | 9 => s.txCursor.setWidth 32
  | 10 => packWord s.pkt 0
  | 11 => packWord s.pkt 4
  | 12 => configWord s.cfg
  | _ => 0#32

end Sys2Proof.Machine
end

