-- ==== Sys2Proof/Machine/Agents.lean ====
section
/-! DEFINITION. What each turn of the schedule does: the consumer's port accesses (20_memory.md R52, R53,
30_encoding.md R74), the collaborators' event records (R78), an observer's read, and reset. -/

namespace Sys2Proof.Machine

/-- execute_command(w) of R74, and the end of the access that wrote it. A command whose guard is false is
held: it has no step, and the consumer stays at it (43_transmitter.md R161, 44_handoff.md R181). -/
def commandWrite (w : Word) (s : State) : Outcome :=
  if s.halted then .next (nextAccess s)
  else
    match decodeCommand s.cfg.frameLen w with
    | .ok i => if enabled i s then exec i (nextAccess s) else .next s
    | .error _ => .next (raise .illegalCommand (nextAccess s))

/-- One port access of the consumer. A write to an index other than 0 is ignored (20_memory.md R53); a
read changes no state (R52). -/
def portAccess (a : Access) (s : State) : Outcome :=
  match a with
  | .read idx => .next (putRegData (regRead s idx) (nextAccess s))
  | .write idx w => if idx = 0#6 then commandWrite w s else .next (nextAccess s)

/-- The consumer's turn: it has no step while WAITING = 1 (44_handoff.md R181, R184), and none when it
has nothing to issue (log entry 5). -/
def consumerTurn (s : State) : Outcome :=
  if s.waiting then .next s
  else
    match s.program[s.progPos]? with
    | none => .next s
    | some a => portAccess a s

/-- How the refusal of an event record is named (R78). -/
def refuseRecord (r : EventRecord) : DecodeError → Refusal
  | .payloadNotZero => .payloadNotZero r.ev r.payload
  | .unknownEvent => .unknownEvent r.ev
  | .reservedNotZero => .unknownEvent r.ev
  | .unknownOpcode => .unknownEvent r.ev
  | .operandNotZero => .unknownEvent r.ev
  | .spanTooLong => .unknownEvent r.ev

/-- A collaborator's turn: a record that is no event is refused (R78). -/
def eventTurn (r : EventRecord) (s : State) : Outcome :=
  match decodeEvent r with
  | .ok i => exec i s
  | .error e => .refused (refuseRecord r e)

/-- One turn, already taken off the schedule. -/
def takeTurn (t : Turn) (s : State) : Outcome :=
  match t with
  | .consumer => consumerTurn s
  | .event r => eventTurn r s
  | .observe idx => .next (putRegData (regRead s idx) s)
  | .reset => .next (applyReset s)

/-- The next turn of the schedule; with none to come, the block stays as it is (log entry 5). -/
def takeNextTurn (s : State) : Outcome :=
  match s.schedule with
  | [] => .next s
  | t :: _ => takeTurn t (dropTurn s)

/-- Places an encoding where the very next step runs it: a command word as the consumer's next access,
with the consumer's turn first and no wait pending; an event record as the first turn (log entry 4). -/
def placeNext (e : Encoded) (s : State) : State :=
  match e with
  | .command w =>
    { s with
      program := s.program.take s.progPos ++ .write 0#6 w :: s.program.drop s.progPos
      progPos := (s.program.take s.progPos).length
      waiting := false
      schedule := .consumer :: s.schedule }
  | .event r => { s with schedule := .event r :: s.schedule }

end Sys2Proof.Machine
end

