-- ==== Sys2Proof/Machine/Step.lean ====
section
/-! DEFINITION. The one step of the machine, and the placing of an instruction where it runs next. -/

namespace Sys2Proof.Machine

/-- One atomic transition of the total order of 20_memory.md R62: the first turn of the schedule. -/
def step (s : State) : Host.Outcome State Fault Refusal := takeNextTurn s

/-- The state in which the very next step runs the table word (log entries 4 and 8). -/
def State.withFetchWord (s : State) (nbits w : Nat) : State := placeNext (tableEncoded nbits w) s

end Sys2Proof.Machine
end

