-- ==== Sys2Proof/Machine/Assembler.lean ====
section
/-! DEFINITION. The trace notation of 30_encoding.md R79: command lines, the pseudo-instructions of R80,
`.word` lines, event lines and reset lines; and loading a trace as the inputs of a machine. -/

namespace Sys2Proof.Machine

/-- What a trace line stands for: a word the consumer writes to CMD, an event record, or reset. -/
inductive TraceItem where
  | command (w : Word)
  | event (r : EventRecord)
  | reset
deriving DecidableEq, Repr

/-- Why a line is rejected (R79). -/
inductive AsmError where
  /-- no mnemonic, directive or event of R72, R78, R79 or R80 -/
  | unknownName
  /-- an operand on a line that takes none -/
  | operandNotAllowed
  /-- no operand where one is needed -/
  | operandMissing
  /-- not a decimal or 0x hexadecimal number -/
  | notANumber
  /-- a number that does not fit its field, or a CRC_SPAN count above FRAME_LEN -/
  | operandTooLarge
deriving DecidableEq, Repr

/-- The value of a hexadecimal digit, either case (log entry 17). -/
def hexDigit? (c : Char) : Option Nat :=
  if '0' ≤ c ∧ c ≤ '9' then some (c.toNat - '0'.toNat)
  else if 'a' ≤ c ∧ c ≤ 'f' then some (c.toNat - 'a'.toNat + 10)
  else if 'A' ≤ c ∧ c ≤ 'F' then some (c.toNat - 'A'.toNat + 10)
  else none

/-- The number a list of digits writes in a base, from the digits already read. -/
def digits? (base acc : Nat) : List Char → Option Nat
  | [] => some acc
  | c :: cs =>
    match hexDigit? c with
    | none => none
    | some d => if d < base then digits? base (acc * base + d) cs else none

/-- A decimal or 0x hexadecimal number with at least one digit (R79). -/
def number? : List Char → Option Nat
  | [] => none
  | '0' :: 'x' :: [] => none
  | '0' :: 'x' :: cs => digits? 16 0 cs
  | cs => digits? 10 0 cs

/-- A blank between the words of a line (log entry 17). -/
def isBlank (c : Char) : Bool := c == ' ' || c == '\t'

/-- The words of a line, from the word being read (held in reverse); `;` starts a comment (R79). -/
def lineWords : List Char → List Char → List (List Char)
  | cur, [] => if cur.isEmpty then [] else [cur.reverse]
  | cur, c :: cs =>
    if c == ';' then (if cur.isEmpty then [] else [cur.reverse])
    else if isBlank c then
      (if cur.isEmpty then lineWords [] cs else cur.reverse :: lineWords [] cs)
    else lineWords (c :: cur) cs

/-- The commands and pseudo-instructions that take no operand (R79, R80). -/
def plainCommands : List (List Char × List Instr) :=
  [ ("NOP".toList, [.nop]), ("CONSUME".toList, [.consume]), ("CONV_I".toList, [.convI])
  , ("CONV_V".toList, [.convV]), ("BUILD".toList, [.build]), ("START_SEND".toList, [.startSend])
  , ("WFI".toList, [.wfi]), ("CONV_BOTH".toList, Pseudo.convBoth.expand)
  , ("FRAME_SEND".toList, Pseudo.frameSend.expand), ("CRC_FRAME".toList, Pseudo.crcFrame.expand) ]

/-- The event lines that carry no codes, and the reset line (R79). -/
def plainEvents : List (List Char × TraceItem) :=
  [ ("!TRIG".toList, .event ⟨0x1#4, 0#32⟩), ("!BYTE_READY".toList, .event ⟨0x3#4, 0#32⟩)
  , ("!TX_TAKE".toList, .event ⟨0x4#4, 0#32⟩), ("!FAULT".toList, .event ⟨0x5#4, 0#32⟩)
  , ("!RESET".toList, .reset) ]

/-- The encoding of an instruction as a trace item. -/
def traceItem (i : Instr) : TraceItem :=
  match encode i with
  | .command w => .command w
  | .event r => .event r

/-- A number that must fit a field of the given number of bits: decimal or 0x hexadecimal, for `#value` as
R79 says, and by DESIGN CHOICE (log entry 17) for a code of `!CONV_DONE` and the value of `.word` too,
whose number form R79 leaves open. -/
def fieldValue (bits : Nat) (cs : List Char) : Except AsmError Nat :=
  match number? cs with
  | none => .error .notANumber
  | some n => if n < 2 ^ bits then .ok n else .error .operandTooLarge

/-- `#value`, which must fit IMM16 (R79). -/
def immOperand (w : List Char) : Except AsmError Code :=
  match w with
  | '#' :: cs => (fieldValue 16 cs).map (BitVec.ofNat 16)
  | _ => .error .notANumber

/-- `i=<code>` or `v=<code>` (R79), the code in decimal or 0x hexadecimal (DESIGN CHOICE, log entry 17). -/
def codeOperand (name : Char) (w : List Char) : Except AsmError Code :=
  match w with
  | c :: '=' :: cs => if c == name then (fieldValue 16 cs).map (BitVec.ofNat 16) else .error .notANumber
  | _ => .error .notANumber

/-- A command with an operand, checked so that no illegal word is produced (R79). -/
def immCommand (frameLen : Nat) (make : Code → Instr) (rest : List (List Char)) :
    Except AsmError (List TraceItem) :=
  match rest with
  | [] => .error .operandMissing
  | [w] =>
    (immOperand w).bind fun v =>
      if (make v).wellFormed frameLen then .ok [traceItem (make v)] else .error .operandTooLarge
  | _ => .error .operandNotAllowed

/-- The words of one line. -/
def assembleWords (frameLen : Nat) : List (List Char) → Except AsmError (List TraceItem)
  | [] => .ok []
  | name :: rest =>
    if name == "CONV_I_IMM".toList then immCommand frameLen .convIImm rest
    else if name == "CONV_V_IMM".toList then immCommand frameLen .convVImm rest
    else if name == "CRC_SPAN".toList then immCommand frameLen .crcSpan rest
    else if name == ".word".toList then
      match rest with
      | [] => .error .operandMissing
      | [w] => (fieldValue 32 w).map fun n => [.command (BitVec.ofNat 32 n)]
      | _ => .error .operandNotAllowed
    else if name == "!CONV_DONE".toList then
      match rest with
      | [wi, wv] =>
        (codeOperand 'i' wi).bind fun ci =>
          (codeOperand 'v' wv).map fun cv => [traceItem (.evtConvDone ci cv)]
      | [] => .error .operandMissing
      | [_] => .error .operandMissing
      | _ => .error .operandNotAllowed
    else
      match plainCommands.lookup name, plainEvents.lookup name with
      | some is, _ => if rest.isEmpty then .ok (is.map traceItem) else .error .operandNotAllowed
      | none, some e => if rest.isEmpty then .ok [e] else .error .operandNotAllowed
      | none, none => .error .unknownName

/-- One line of a trace (R79). -/
def assembleLine (frameLen : Nat) (line : String) : Except AsmError (List TraceItem) :=
  assembleWords frameLen (lineWords [] line.toList)

/-- A trace, line by line: the first rejected line rejects it. -/
def assemble (frameLen : Nat) : List String → Except AsmError (List TraceItem)
  | [] => .ok []
  | l :: ls =>
    (assembleLine frameLen l).bind fun items =>
      (assemble frameLen ls).map fun more => items ++ more

/-- Puts an access in front of the first of the runs. -/
def consAccess (a : Access) : List (List Access) → List (List Access)
  | [] => [[a]]
  | r :: rs => (a :: r) :: rs

/-- The consumer's accesses a trace holds, in order, one run for every stretch between resets: each
command line writes its own word (R79), behind a `!RESET` line too. -/
def traceRuns : List TraceItem → List (List Access)
  | [] => [[]]
  | .command w :: items => consAccess (.write 0#6 w) (traceRuns items)
  | .event _ :: items => traceRuns items
  | .reset :: items => [] :: traceRuns items

/-- The turn of a trace item. -/
def traceTurn : TraceItem → Turn
  | .command _ => .consumer
  | .event r => .event r
  | .reset => .reset

/-- The state right after reset, with a trace as its inputs (log entry 4): the words of the command lines
before the first `!RESET` line are the program, and those behind each `!RESET` line are what the restarted
program issues (log entry 18). -/
def loadTrace (c : Config) (items : List TraceItem) : State :=
  { State.resetWith c with
    program := (traceRuns items).headD []
    laterRuns := (traceRuns items).tail
    schedule := items.map traceTurn }

end Sys2Proof.Machine
end

