-- ==== Sys2Proof/Safety.lean ====
section
/-! DEFINITION. What counts as a safe run, the invariant of the machine, and the terms the claims use:
the bytes still owed to the line, the strobes of the output ports, and the codes of a handoff. -/

namespace Sys2Proof.Machine

/-- A fault outcome of the block: a sticky error or the halt. A claim about emitted bytes takes these as
excluded (60_exceptions.md R212, R215; 30_encoding.md R75 with 92_eei_decisions.md D20). -/
def faulted (s : State) : Bool := s.errIllegal || s.errBuildBusy || s.halted

/-- k steps, stopping at the first fault or refusal: Host.Core.run of this machine, written over State. -/
def runSteps : Nat → State → Outcome
  | 0, s => .next s
  | k + 1, s =>
    match step s with
    | .next t => runSteps k t
    | .fault r => .fault r
    | .refused r => .refused r

/-- A run of k steps that ends in a state with no fault outcome recorded. -/
def safeRun (k : Nat) (s : State) : Prop :=
  ∃ t, runSteps k s = .next t ∧ faulted t = false

/-- The event records of EVT_CONV_DONE, EVT_BYTE_READY and EVT_TX_TAKE (30_encoding.md R78). -/
def convDoneRecord (codeI codeV : Code) : EventRecord := ⟨0x2#4, codeV ++ codeI⟩

def byteReadyRecord : EventRecord := ⟨0x3#4, 0#32⟩

def txTakeRecord : EventRecord := ⟨0x4#4, 0#32⟩

/-- The consumer can issue a command that takes effect: it does not wait, and the block is not halted. -/
def mayAct (s : State) : Prop := s.waiting = false ∧ s.halted = false

/-- A command given now has no effect: the consumer waits (no step, which exec shows by answering the same
state: log entry 5) or the block is halted. -/
def blocked (s : State) : Prop := s.waiting = true ∨ s.halted = true

/-- The frame PKT holds: its first FRAME_LEN bytes. -/
def frameOf (s : State) : List Byte := memTake s.pkt s.cfg.frameLen

/-- The byte the transport has accepted and not yet put on the line. -/
def inFlight (s : State) : List Byte := if s.txEmpty then [] else [s.txHold]

/-- The bytes of the frame in progress that are still to be emitted. -/
def unsent (s : State) : List Byte :=
  match s.txState with
  | .idle => []
  | .sending => (frameOf s).drop s.txCursor.toNat

/-- The line as it will read once the frame in progress is out. -/
def byteStream (s : State) : List Byte := s.txLine ++ inFlight s ++ unsent s

/-- The bytes of the tx_data strobes, in order. -/
def txStrobes : List Output → List Byte
  | [] => []
  | .txData b :: os => b :: txStrobes os
  | .convStart :: os => txStrobes os
  | .regData _ :: os => txStrobes os
  | .wake :: os => txStrobes os

/-- The number of conv_start pulses. -/
def convStarts : List Output → Nat
  | [] => 0
  | .convStart :: os => convStarts os + 1
  | .txData _ :: os => convStarts os
  | .regData _ :: os => convStarts os
  | .wake :: os => convStarts os

/-- The number of wake strobes. -/
def wakes : List Output → Nat
  | [] => 0
  | .wake :: os => wakes os + 1
  | .txData _ :: os => wakes os
  | .regData _ :: os => wakes os
  | .convStart :: os => wakes os

/-- PKT holds a frame of BUILD: marker, checksum, padding (42_framer.md R143). -/
structure IsFrame (c : Config) (m : Memory) : Prop where
  marker : memRead m 0 = 0xA5#8
  checksum : memRead m 5 = crc8 c.crcXorOut (memTake m 5)
  padding : c.padLen = .two → memRead m 6 = c.padByte ∧ memRead m 7 = c.padByte

/-- The invariant of the machine. -/
structure BlockInv (s : State) : Prop where
  /-- TXIE = 1 exactly when TX_STATE = Sending (43_transmitter.md R165) -/
  notify : s.txie = true ↔ s.txState = .sending
  /-- Idle implies TX_CURSOR = 0 (R165) -/
  idleCursor : s.txState = .idle → s.txCursor = 0#4
  /-- Sending implies 1 <= TX_CURSOR <= FRAME_LEN - 1 (R165) -/
  sendingCursor : s.txState = .sending →
    1 ≤ s.txCursor.toNat ∧ s.txCursor.toNat ≤ s.cfg.frameLen - 1
  /-- PKT is in canonical form (log entry 7) -/
  canonical : s.pkt.wf = true
  /-- the bytes from FRAME_LEN on always hold 0x00 (10_state.md R26) -/
  tail : ∀ a, s.cfg.frameLen ≤ a → memRead s.pkt a = 0x00#8
  /-- PKT holds its reset contents or a frame of BUILD (42_framer.md R143) -/
  contents : (∀ a, memRead s.pkt a = 0x00#8) ∨ IsFrame s.cfg s.pkt
  /-- the transport loses, reorders and duplicates no byte (60_exceptions.md R222) -/
  lossless : txStrobes s.outputs = s.txLine ++ inFlight s

/-- The codes of the latest completion are unread, or the consumer's snapshot holds them
(20_memory.md R63). -/
def handedOver (codeI codeV : Code) (s : State) : Prop :=
  s.rawI = codeI ∧ s.rawV = codeV ∧
    (s.ready = true ∨ (s.sampleI = codeI ∧ s.sampleV = codeV))

/-- A turn that neither resets the machine nor carries a completion. -/
def keepsRaw : Turn → Bool
  | .consumer => true
  | .observe _ => true
  | .event r => r.ev != 0x2#4
  | .reset => false

/-- n times: the transport takes its byte, then asks for the next. -/
def transportRounds : Nat → List Turn
  | 0 => []
  | n + 1 => .event txTakeRecord :: .event byteReadyRecord :: transportRounds n

/-- Two states agree on everything but the agents' bookkeeping (the turns to come and the consumer's
position) and the record of output strobes. -/
def sameBlock (s t : State) : Prop :=
  t = { s with schedule := t.schedule, progPos := t.progPos, outputs := t.outputs }

end Sys2Proof.Machine
end

