-- ==== Sys2Proof/Certificates/Slice0/Obligations.lean ====
section
/-! DEFINITION. The statements about the machine, each from the numbered rules of spec/. -/

open Sys2Proof Sys2Proof.Machine

/-! ### The commands

Here and below, where a statement says that exec answers the same state for an instruction whose guard is
false, the spec says that it has no step (00_scope.md R14), and the same state is the model's way to show
it (log entry 5). -/

/-- 44_handoff.md R180: NOP's word, its guard, and that every piece of state is the same before and
after it. -/
def Obligations.NopChangesNothing : Prop :=
  encode .nop = .command 0x00000000#32 ∧
  ∀ s : State, (enabled .nop s = true ↔ s.waiting = false) ∧ exec .nop s = .next s

/-- 44_handoff.md R182: CONSUME tests, clears and snapshots in one transition. -/
def Obligations.ConsumeSnapshotsAndClearsReady : Prop :=
  encode .consume = .command 0x00000001#32 ∧
  ∀ s : State,
    (enabled .consume s = true ↔ s.waiting = false) ∧
    (blocked s → exec .consume s = .next s) ∧
    (mayAct s → s.ready = true →
      exec .consume s =
        .next { s with consumed := true, sampleI := s.rawI, sampleV := s.rawV, ready := false }) ∧
    (mayAct s → s.ready = false → exec .consume s = .next { s with consumed := false })

/-- 40_converter.md R101, R102, R105, R106: CONV_I and CONV_V write the two-stage floor result of the
latched sample, and nothing else. -/
def Obligations.LatchedConversionsWriteTwoStageFloor : Prop :=
  (encode .convI = .command 0x00000002#32 ∧ encode .convV = .command 0x00000003#32) ∧
  ∀ s : State,
    ((enabled .convI s = true ↔ s.waiting = false) ∧ (enabled .convV s = true ↔ s.waiting = false)) ∧
    (blocked s → exec .convI s = .next s ∧ exec .convV s = .next s) ∧
    (mayAct s →
      exec .convI s =
        .next { s with
          curUa := BitVec.ofNat 32
            ((s.sampleI.toNat * s.cfg.vrefMv / s.cfg.fullScale) * s.cfg.iNum / s.cfg.iDen) } ∧
      exec .convV s =
        .next { s with
          voltMv := BitVec.ofNat 32
            ((s.sampleV.toNat * s.cfg.vrefMv / s.cfg.fullScale) * s.cfg.vNum / s.cfg.vDen) })

/-- 40_converter.md R101, R102, R107, R108: the same for an immediate code, whatever its value. -/
def Obligations.ImmediateConversionsWriteTwoStageFloor : Prop :=
  ∀ (s : State) (code : Code),
    (encode (.convIImm code) = .command (code ++ 0x0004#16) ∧
      encode (.convVImm code) = .command (code ++ 0x0005#16)) ∧
    ((enabled (.convIImm code) s = true ↔ s.waiting = false) ∧
      (enabled (.convVImm code) s = true ↔ s.waiting = false)) ∧
    (blocked s → exec (.convIImm code) s = .next s ∧ exec (.convVImm code) s = .next s) ∧
    (mayAct s →
      exec (.convIImm code) s =
        .next { s with
          curUa := BitVec.ofNat 32
            ((code.toNat * s.cfg.vrefMv / s.cfg.fullScale) * s.cfg.iNum / s.cfg.iDen) } ∧
      exec (.convVImm code) s =
        .next { s with
          voltMv := BitVec.ofNat 32
            ((code.toNat * s.cfg.vrefMv / s.cfg.fullScale) * s.cfg.vNum / s.cfg.vDen) })

/-- 40_converter.md R104: under a legal configuration the 32-bit registers hold the exact results. -/
def Obligations.ConvertedRegistersHoldExactResults : Prop :=
  ∀ (s : State) (code : Code), mayAct s →
    (∃ t, exec (.convIImm code) s = .next t ∧
      t.curUa.toNat =
        (code.toNat * s.cfg.vrefMv / s.cfg.fullScale) * s.cfg.iNum / s.cfg.iDen) ∧
    (∃ t, exec (.convVImm code) s = .next t ∧
      t.voltMv.toNat =
        (code.toNat * s.cfg.vrefMv / s.cfg.fullScale) * s.cfg.vNum / s.cfg.vDen)

/-- 40_converter.md R109: determinism, monotonicity, zero, stage truncation (with the example of EX at
code 1: 0 against 16), and full scale at the reference values. -/
def Obligations.ConverterLaws : Prop :=
  (∀ s t : State, s.cfg = t.cfg → s.sampleI = t.sampleI → s.sampleV = t.sampleV →
    mayAct s → mayAct t →
      ∃ si ti sv tv, exec .convI s = .next si ∧ exec .convI t = .next ti ∧ si.curUa = ti.curUa ∧
        exec .convV s = .next sv ∧ exec .convV t = .next tv ∧ sv.voltMv = tv.voltMv) ∧
  (∀ (c : Config) (a b : Code), a.toNat ≤ b.toNat →
    rawToCurrent c a ≤ rawToCurrent c b ∧ rawToVoltage c a ≤ rawToVoltage c b) ∧
  (∀ c : Config, rawToCurrent c 0#16 = 0 ∧ rawToVoltage c 0#16 = 0) ∧
  (∀ (c : Config) (a : Code),
    stageOne c a = a.toNat * c.vrefMv / c.fullScale ∧
    rawToCurrent c a ≤ (a.toNat * c.vrefMv * c.iNum) / (c.fullScale * c.iDen) ∧
    rawToVoltage c a ≤ (a.toNat * c.vrefMv * c.vNum) / (c.fullScale * c.vDen)) ∧
  (∀ c : Config, c.vrefMv = 3300 → c.fullScale = 4095 → c.iNum = 1000 → c.iDen = 50 →
    rawToCurrent c 1#16 = 0 ∧ (1 * 3300 * 1000) / (4095 * 50) = 16) ∧
  (∀ c : Config, c.vrefMv = 3300 → c.fullScale = 4095 → stageOne c 4095#16 = 3300)

/-- 00_scope.md R8, 40_converter.md R104: parameters are a configuration exactly when no constraint is
broken, the result range being asked of every code; all others are refused. -/
def Obligations.IllegalConfigurationsAreRefused : Prop :=
  ∀ p : Params,
    ((Config.of? p).isSome = true ↔
      (1 ≤ p.codeBits ∧ p.codeBits ≤ 16) ∧ 1 ≤ p.fullScale ∧ 1 ≤ p.iDen ∧ 1 ≤ p.vDen ∧
      (∀ c, c ≤ 65535 → (c * p.vrefMv / p.fullScale) * p.iNum / p.iDen < 2 ^ 32) ∧
      (∀ c, c ≤ 65535 → (c * p.vrefMv / p.fullScale) * p.vNum / p.vDen < 2 ^ 32)) ∧
    (∀ c, Config.of? p = some c → c.toParams = p)

/-- 41_checksum.md R120: one shift is a doubling with the polynomial XORed in when bit 7 was set; a byte
is XORed in before its 8 shifts; the register starts at 0 and CRC_XOROUT is applied last. -/
def Obligations.ChecksumFollowsTheBitLoop : Prop :=
  (∀ c : Byte, (crcShift c).toNat =
    if c.getLsbD 7 then (c.toNat * 2 % 256) ^^^ 0x07 else c.toNat * 2 % 256) ∧
  (∀ c b : Byte, crcByte c b =
    crcShift (crcShift (crcShift (crcShift (crcShift (crcShift (crcShift (crcShift (c ^^^ b))))))))) ∧
  (∀ x : Byte, crc8 x [] = 0x00#8 ^^^ x) ∧
  (∀ (x b : Byte) (bs : List Byte), crc8 x (bs ++ [b]) = crcByte (crc8 0x00#8 bs) b ^^^ x)

/-- 41_checksum.md R122: the empty span, the single bytes and the check value; the residue; every
single-bit flip is seen; linearity. -/
def Obligations.ChecksumLaws : Prop :=
  crc8 0#8 [] = 0x00#8 ∧
  (crc8 0#8 [0x01#8] = 0x07#8 ∧ crc8 0#8 [0x80#8] = 0x89#8 ∧
    crc8 0#8 [0xFF#8] = 0xF3#8 ∧ crc8 0#8 [0xA5#8] = 0x72#8) ∧
  crc8 0#8 [0x31#8, 0x32#8, 0x33#8, 0x34#8, 0x35#8, 0x36#8, 0x37#8, 0x38#8, 0x39#8] = 0xF4#8 ∧
  (∀ (bs : List Byte) (k : Nat),
    crc8 0#8 (bs ++ [crc8 0#8 bs] ++ List.replicate k 0x00#8) = 0x00#8) ∧
  (∀ (before after : List Byte) (b : Byte) (bit : Nat), bit < 8 →
    crc8 0#8 (before ++ [b ^^^ (1#8 <<< bit)] ++ after) ≠ crc8 0#8 (before ++ [b] ++ after)) ∧
  (∀ as bs : List Byte, as.length = bs.length →
    crc8 0#8 (List.zipWith (· ^^^ ·) as bs) = crc8 0#8 as ^^^ crc8 0#8 bs)

/-- 41_checksum.md R123: CRC_SPAN stores the checksum of the packet's first n bytes in CRC_OUT, and
changes nothing else. -/
def Obligations.CrcSpanWritesPrefixChecksum : Prop :=
  ∀ (s : State) (n : Code),
    encode (.crcSpan n) = .command (n ++ 0x0008#16) ∧
    (enabled (.crcSpan n) s = true ↔ s.waiting = false) ∧
    (blocked s → exec (.crcSpan n) s = .next s) ∧
    (mayAct s → n.toNat ≤ s.cfg.frameLen →
      exec (.crcSpan n) s =
        .next { s with
          crcOut := crc8 s.cfg.crcXorOut ((List.range n.toNat).map fun k => memRead s.pkt k) }) ∧
    (mayAct s → s.cfg.crcXorOut = 0#8 → ∃ t, exec (.crcSpan 0#16) s = .next t ∧ t.crcOut = 0x00#8)

/-- 42_framer.md R140, R141, R142: BUILD lays out marker, voltage, current, checksum and padding, records
ERR_BUILD_BUSY while Sending, and changes nothing else. The padding byte is the parameter PAD_BYTE, whose
default is 0x00 (log entry 11); PKT is in canonical form, which every step keeps
(EveryStepKeepsTheInvariant). -/
def Obligations.BuildStoresTheFrame : Prop :=
  encode .build = .command 0x00000006#32 ∧
  ∀ s : State, s.pkt.wf = true →
    (enabled .build s = true ↔ s.waiting = false) ∧
    (blocked s → exec .build s = .next s) ∧
    (mayAct s → ∀ cf vf : Code,
      cf = (if s.cfg.fixedDebugFields then 0x0102#16
            else if s.cfg.sendRaw then s.sampleI else s.curUa.extractLsb' 0 16) →
      vf = (if s.cfg.fixedDebugFields then 0x0304#16
            else if s.cfg.sendRaw then s.sampleV else s.voltMv.extractLsb' 0 16) →
      ∃ m : Memory,
        exec .build s =
          .next { s with pkt := m, errBuildBusy := s.errBuildBusy || s.txState == .sending } ∧
        memRead m 0 = 0xA5#8 ∧
        memRead m 1 = vf.extractLsb' 0 8 ∧ memRead m 2 = vf.extractLsb' 8 8 ∧
        memRead m 3 = cf.extractLsb' 0 8 ∧ memRead m 4 = cf.extractLsb' 8 8 ∧
        memRead m 5 = crc8 s.cfg.crcXorOut
          [memRead m 0, memRead m 1, memRead m 2, memRead m 3, memRead m 4] ∧
        (s.cfg.padLen = .two → memRead m 6 = s.cfg.padByte ∧ memRead m 7 = s.cfg.padByte) ∧
        (∀ a, s.cfg.frameLen ≤ a → memRead m a = memRead s.pkt a))

/-- 42_framer.md R144: BUILD is a function of the low 16 bits of the converted registers, the samples and
the configuration alone, and building twice gives the same bytes. -/
def Obligations.BuildDependsOnItsInputsAlone : Prop :=
  ∀ s t : State, s.pkt.wf = true → t.pkt.wf = true → s.cfg = t.cfg → s.sampleI = t.sampleI → s.sampleV = t.sampleV →
    s.curUa.extractLsb' 0 16 = t.curUa.extractLsb' 0 16 →
    s.voltMv.extractLsb' 0 16 = t.voltMv.extractLsb' 0 16 → mayAct s → mayAct t →
    ∃ s' t', exec .build s = .next s' ∧ exec .build t = .next t' ∧
      (∀ a, a < s.cfg.frameLen → memRead s'.pkt a = memRead t'.pkt a) ∧
      ∃ s'', exec .build s' = .next s'' ∧ ∀ a, memRead s''.pkt a = memRead s'.pkt a

/-- 41_checksum.md R123 with R122: after a BUILD, CRC_SPAN #5 gives the stored checksum, and CRC_SPAN #6
gives 0x00; with PAD_LEN = 2 and PAD_BYTE = 0x00, so do #7 and #8. -/
def Obligations.BuiltFrameHasZeroResidue : Prop :=
  ∀ s : State, mayAct s → s.pkt.wf = true → s.cfg.crcXorOut = 0#8 →
    ∃ t, exec .build s = .next t ∧
      (∃ u, exec (.crcSpan 5#16) t = .next u ∧ u.crcOut = memRead t.pkt 5 ∧ u.pkt = t.pkt) ∧
      (∃ u, exec (.crcSpan 6#16) t = .next u ∧ u.crcOut = 0x00#8) ∧
      (s.cfg.padLen = .two → s.cfg.padByte = 0#8 →
        (∃ u, exec (.crcSpan 7#16) t = .next u ∧ u.crcOut = 0x00#8) ∧
        (∃ u, exec (.crcSpan 8#16) t = .next u ∧ u.crcOut = 0x00#8))

/-- 43_transmitter.md R161, R167: START_SEND emits PKT[0] and enters Sending; it is dropped while Sending
and held while the transport is not empty. The strobe list is the model's record of emit (log entry 6). -/
def Obligations.StartSendRule : Prop :=
  encode .startSend = .command 0x00000007#32 ∧
  ∀ s : State,
    (enabled .startSend s = true ↔
      s.waiting = false ∧ (s.halted = true ∨ s.txState = .sending ∨ s.txEmpty = true)) ∧
    (blocked s → exec .startSend s = .next s) ∧
    (s.txState = .sending → exec .startSend s = .next s) ∧
    (mayAct s → s.txState = .idle → s.txEmpty = false → exec .startSend s = .next s) ∧
    (mayAct s → s.txState = .idle → s.txEmpty = true →
      exec .startSend s =
        .next { s with
          txEmpty := false, txHold := memRead s.pkt 0
          outputs := s.outputs ++ [.txData (memRead s.pkt 0)]
          txCursor := 1#4, txie := true, txState := .sending })

/-- 43_transmitter.md R161, 44_handoff.md R181, 70_reset_and_hazards.md R254: a START_SEND issued in Idle
while the transport is not empty stays the consumer's next access; it takes effect in the first state
where TX_EMPTY = 1. Turns, and a turn without a step, are the model's convention (log entries 3 to 5). -/
def Obligations.HeldStartSendWaitsForTheTransport : Prop :=
  ∀ (s : State) (rest : List Turn), mayAct s → s.txState = .idle → s.txEmpty = false →
    s.program[s.progPos]? = some (.write 0#6 0x00000007#32) →
    (s.schedule = .consumer :: rest → step s = .next { s with schedule := rest }) ∧
    (s.schedule = .event txTakeRecord :: .consumer :: rest →
      runSteps 2 s =
        .next { s with
          schedule := rest, progPos := s.progPos + 1
          txLine := s.txLine ++ [s.txHold]
          txEmpty := false, txHold := memRead s.pkt 0
          outputs := s.outputs ++ [.txData (memRead s.pkt 0)]
          txCursor := 1#4, txie := true, txState := .sending })

/-- 44_handoff.md R184: WFI sets WAITING, and nothing else, so an event before it does not count; while
WAITING = 1 no command has a step. -/
def Obligations.WfiWaitsForTheNextEvent : Prop :=
  encode .wfi = .command 0x00000009#32 ∧
  (∀ s : State,
    (enabled .wfi s = true ↔ s.waiting = false) ∧
    (blocked s → exec .wfi s = .next s) ∧
    (mayAct s → exec .wfi s = .next { s with waiting := true })) ∧
  (∀ (s : State) (i : Instr), s.waiting = true → i.isCommand = true → enabled i s = false)

/-! ### The events -/

/-- 44_handoff.md R187: a trigger starts a conversion unless one runs, and wakes the consumer. os is what
the transition adds to the model's record of output strobes (log entry 6): one conv_start pulse where it
starts a conversion, none elsewhere. -/
def Obligations.TriggerRule : Prop :=
  encode .evtTrig = .event ⟨0x1#4, 0#32⟩ ∧
  ∀ s : State,
    enabled .evtTrig s = true ∧
    (s.halted = true → exec .evtTrig s = .next s) ∧
    (s.halted = false → s.convBusy = false → ∃ os : List Output,
      exec .evtTrig s =
        .next { s with convBusy := true, waiting := false, outputs := s.outputs ++ os } ∧
      convStarts os = 1 ∧ txStrobes os = []) ∧
    (s.halted = false → s.convBusy = true → ∃ os : List Output,
      exec .evtTrig s = .next { s with waiting := false, outputs := s.outputs ++ os } ∧
      convStarts os = 0 ∧ txStrobes os = [])

/-- 44_handoff.md R188: a completion commits both codes with the flag and wakes the consumer, over an
unread one too (60_exceptions.md R213); with no conversion started it is ignored. os is as in
TriggerRule. -/
def Obligations.ConversionDoneRule : Prop :=
  ∀ (s : State) (codeI codeV : Code),
    encode (.evtConvDone codeI codeV) = .event ⟨0x2#4, codeV ++ codeI⟩ ∧
    enabled (.evtConvDone codeI codeV) s = true ∧
    (s.halted = true → exec (.evtConvDone codeI codeV) s = .next s) ∧
    (s.halted = false → s.convBusy = false → exec (.evtConvDone codeI codeV) s = .next s) ∧
    (s.halted = false → s.convBusy = true → ∃ os : List Output,
      exec (.evtConvDone codeI codeV) s =
        .next { s with
          rawI := codeI, rawV := codeV, ready := true, convBusy := false, waiting := false
          outputs := s.outputs ++ os } ∧
      convStarts os = 0 ∧ txStrobes os = [])

/-- 43_transmitter.md R163: a delivered byte-ready emits the byte at the cursor and advances, the last
byte returns the engine to Idle, and the consumer wakes; a masked one has no step. os is as in
TriggerRule; txStrobes os are the emitted bytes. -/
def Obligations.ByteReadyRule : Prop :=
  encode .evtByteReady = .event ⟨0x3#4, 0#32⟩ ∧
  ∀ s : State,
    (enabled .evtByteReady s = true ↔ s.txie = true ∧ s.txEmpty = true) ∧
    (s.txie = false ∨ s.txEmpty = false → exec .evtByteReady s = .next s) ∧
    (s.halted = true → exec .evtByteReady s = .next s) ∧
    (s.txie = true → s.txEmpty = true → s.halted = false → s.txCursor.toNat + 1 < s.cfg.frameLen →
      ∃ os : List Output,
        exec .evtByteReady s =
          .next { s with
            txEmpty := false, txHold := memRead s.pkt s.txCursor.toNat
            txCursor := s.txCursor + 1#4, waiting := false, outputs := s.outputs ++ os } ∧
        txStrobes os = [memRead s.pkt s.txCursor.toNat] ∧ convStarts os = 0) ∧
    (s.txie = true → s.txEmpty = true → s.halted = false → s.txCursor.toNat + 1 = s.cfg.frameLen →
      ∃ os : List Output,
        exec .evtByteReady s =
          .next { s with
            txEmpty := false, txHold := memRead s.pkt s.txCursor.toNat
            txCursor := 0#4, txie := false, txState := .idle, waiting := false
            outputs := s.outputs ++ os } ∧
        txStrobes os = [memRead s.pkt s.txCursor.toNat] ∧ convStarts os = 0)

/-- 43_transmitter.md R164: the transport puts the byte it holds on the line, halted or not; it wakes
nobody. -/
def Obligations.TransportTakeRule : Prop :=
  encode .evtTxTake = .event ⟨0x4#4, 0#32⟩ ∧
  ∀ s : State,
    (enabled .evtTxTake s = true ↔ s.txEmpty = false) ∧
    (s.txEmpty = true → exec .evtTxTake s = .next s) ∧
    (s.txEmpty = false →
      exec .evtTxTake s = .next { s with txLine := s.txLine ++ [s.txHold], txEmpty := true })

/-- 60_exceptions.md R214: EVT_FAULT sets HALTED and nothing else, in every state. -/
def Obligations.FaultEventHaltsTheBlock : Prop :=
  encode .evtFault = .event ⟨0x5#4, 0#32⟩ ∧
  ∀ s : State, enabled .evtFault s = true ∧ exec .evtFault s = .next { s with halted := true }

/-- 60_exceptions.md R215: while HALTED = 1 every command and every event but EVT_TX_TAKE is taken with
no effect, EVT_TX_TAKE still steps, no step but reset clears HALTED, and a step that is neither a reset nor EVT_TX_TAKE changes
nothing of the block and emits nothing; the reads it may make only show register values. -/
def Obligations.HaltedBlockTakesNothing : Prop :=
  ∀ s : State, s.halted = true →
    (∀ i, i ≠ .evtTxTake → exec i s = .next s) ∧
    (s.txEmpty = false →
      exec .evtTxTake s = .next { s with txLine := s.txLine ++ [s.txHold], txEmpty := true }) ∧
    (∀ t, step s = .next t → s.schedule.head? ≠ some .reset → t.halted = true) ∧
    (∀ t, step s = .next t → s.schedule.head? ≠ some .reset →
      s.schedule.head? ≠ some (.event txTakeRecord) →
      sameBlock s t ∧
      ∃ os, t.outputs = s.outputs ++ os ∧ ∀ o ∈ os, ∃ idx, o = .regData (regRead s idx))

/-! ### Steps of the agents -/

/-- 30_encoding.md R74, R78: a step runs the instruction that the next word or record decodes to, with
the turn and the consumer's access behind it. Turns and the consumer's position are the model's (log
entries 3 and 4). -/
def Obligations.StepRunsTheDecodedInstruction : Prop :=
  (∀ (s : State) (rest : List Turn) (w : Word) (i : Instr),
    s.schedule = .consumer :: rest → s.waiting = false →
    s.program[s.progPos]? = some (.write 0#6 w) →
    decodeCommand s.cfg.frameLen w = .ok i → enabled i s = true →
    step s = exec i { s with schedule := rest, progPos := s.progPos + 1 }) ∧
  (∀ (s : State) (rest : List Turn) (r : EventRecord) (i : Instr),
    s.schedule = .event r :: rest → decodeEvent r = .ok i →
    step s = exec i { s with schedule := rest })

/-- The model's own convention (log entry 4): an instruction that is placed next is what the very next
step runs, from every state, where it is enabled. -/
def Obligations.PlacedInstructionRunsNext : Prop :=
  ∀ (s : State) (i : Instr), i.wellFormed s.cfg.frameLen = true →
    enabled i { s with waiting := false } = true →
    ∃ u, step (placeNext (encode i) s) = exec i u ∧
      sameBlock { s with waiting := if i.isCommand then false else s.waiting,
                         program := u.program } u ∧
      u.schedule = s.schedule ∧ u.outputs = s.outputs

/-- 30_encoding.md R75: an illegal word sets ERR_ILLEGAL and nothing else, and the consumer goes on. -/
def Obligations.IllegalWordSetsOnlyErrIllegal : Prop :=
  ∀ (s : State) (rest : List Turn) (w : Word),
    s.schedule = .consumer :: rest → mayAct s →
    s.program[s.progPos]? = some (.write 0#6 w) →
    ((w.extractLsb' 8 8 ≠ 0#8) ∨ (0x0A ≤ (w.extractLsb' 0 8).toNat) ∨
      ((w.extractLsb' 0 8).toNat ∈ [0x00, 0x01, 0x02, 0x03, 0x06, 0x07, 0x09] ∧
        w.extractLsb' 16 16 ≠ 0#16) ∨
      (w.extractLsb' 0 8 = 0x08#8 ∧ s.cfg.frameLen < (w.extractLsb' 16 16).toNat)) →
    step s = .next { s with schedule := rest, progPos := s.progPos + 1, errIllegal := true }

/-- 20_memory.md R53: a write to an index other than 0 has no effect on the block. -/
def Obligations.WritesOffCmdAreIgnored : Prop :=
  ∀ (s : State) (rest : List Turn) (idx : RegIdx) (w : Word),
    s.schedule = .consumer :: rest → s.waiting = false →
    s.program[s.progPos]? = some (.write idx w) → idx ≠ 0#6 →
    step s = .next { s with schedule := rest, progPos := s.progPos + 1 }

/-- 20_memory.md R52: a register read by the consumer, or by an observer in any state, shows RegRead(idx)
and changes no state. Turns, the position and the strobe record are the model's (log entries 3, 4, 6). -/
def Obligations.RegisterReadsChangeNothing : Prop :=
  (∀ (s : State) (rest : List Turn) (idx : RegIdx),
    s.schedule = .consumer :: rest → s.waiting = false →
    s.program[s.progPos]? = some (.read idx) →
    step s = .next { s with
      schedule := rest, progPos := s.progPos + 1, outputs := s.outputs ++ [.regData (regRead s idx)] }) ∧
  (∀ (s : State) (rest : List Turn) (idx : RegIdx), s.schedule = .observe idx :: rest →
    step s = .next { s with schedule := rest, outputs := s.outputs ++ [.regData (regRead s idx)] })

/-- 10_state.md R33, 44_handoff.md R181: while WAITING = 1 the consumer has no step. A turn without a
step is the model's convention (log entry 5). -/
def Obligations.WaitingConsumerHasNoStep : Prop :=
  ∀ (s : State) (rest : List Turn), s.schedule = .consumer :: rest → s.waiting = true →
    step s = .next { s with schedule := rest }

/-- 70_reset_and_hazards.md R240, R242, 10_state.md R41: reset in any state sets every piece of state to
its reset value and leaves the configuration; the consumer restarts its program from its first access. The
turns behind it stay to come (log entry 4); what the restarted program issues is the next of the runs
given for it, else the same accesses again (log entry 18). -/
def Obligations.ResetSetsEveryRegister : Prop :=
  ∀ (s : State) (rest : List Turn), s.schedule = .reset :: rest →
    ∃ t, step s = .next t ∧ t.cfg = s.cfg ∧
      t.rawI = 0#16 ∧ t.rawV = 0#16 ∧ t.sampleI = 0#16 ∧ t.sampleV = 0#16 ∧
      t.curUa = 0#32 ∧ t.voltMv = 0#32 ∧ t.crcOut = 0#8 ∧ (∀ a, memRead t.pkt a = 0x00#8) ∧
      t.txState = .idle ∧ t.txCursor = 0#4 ∧ t.txie = false ∧
      t.ready = false ∧ t.convBusy = false ∧ t.consumed = false ∧ t.waiting = false ∧
      t.errIllegal = false ∧ t.errBuildBusy = false ∧ t.halted = false ∧
      t.txEmpty = true ∧ t.txHold = 0#8 ∧ t.txLine = [] ∧
      t.progPos = 0 ∧ t.schedule = rest ∧
      (s.laterRuns = [] → t.program = s.program ∧ t.laterRuns = []) ∧
      (∀ run runs, s.laterRuns = run :: runs → t.program = run ∧ t.laterRuns = runs)

/-- 70_reset_and_hazards.md R241: right after reset the block accepts every legal command and every event
but the masked byte-ready, and a completion before the first trigger is ignored. -/
def Obligations.EntryAfterReset : Prop :=
  ∀ c : Config,
    mayAct (State.resetWith c) ∧
    (∀ i : Instr, i.isCommand = true → enabled i (State.resetWith c) = true) ∧
    enabled .evtByteReady (State.resetWith c) = false ∧
    enabled .evtTrig (State.resetWith c) = true ∧ enabled .evtFault (State.resetWith c) = true ∧
    (∀ codeI codeV, enabled (.evtConvDone codeI codeV) (State.resetWith c) = true ∧
      exec (.evtConvDone codeI codeV) (State.resetWith c) = .next (State.resetWith c))

/-! ### The register port -/

/-- 10_state.md R38: the STATUS layout, every bit not listed reading 0. -/
def Obligations.StatusLayout : Prop :=
  ∀ s : State,
    (statusWord s).getLsbD 0 = s.ready ∧
    ((statusWord s).getLsbD 1 = true ↔ s.txState = .sending) ∧
    (statusWord s).getLsbD 2 = s.txie ∧ (statusWord s).getLsbD 3 = s.convBusy ∧
    (statusWord s).getLsbD 4 = s.consumed ∧ (statusWord s).getLsbD 5 = s.txEmpty ∧
    (statusWord s).getLsbD 8 = s.errIllegal ∧ (statusWord s).getLsbD 9 = s.errBuildBusy ∧
    (statusWord s).getLsbD 15 = s.halted ∧
    (∀ k, k ∉ [0, 1, 2, 3, 4, 5, 8, 9, 15] → (statusWord s).getLsbD k = false) ∧
    (∀ c, statusWord (State.resetWith c) = 0x00000020#32)

/-- 10_state.md R39: the CONFIG layout, which shows no other parameter; no step writes the configuration,
reset included. -/
def Obligations.ConfigLayoutAndConstancy : Prop :=
  (∀ c : Config,
    (configWord c).getLsbD 0 = c.sendRaw ∧
    ((configWord c).getLsbD 1 = true ↔ c.padLen = .two) ∧
    (configWord c).getLsbD 2 = c.fixedDebugFields ∧
    (configWord c).extractLsb' 3 5 = 0#5 ∧
    ((configWord c).extractLsb' 8 4).toNat = c.frameLen ∧
    (c.padLen = .zero → c.frameLen = 6) ∧ (c.padLen = .two → c.frameLen = 8) ∧
    (configWord c).extractLsb' 12 20 = 0#20) ∧
  (∀ c c' : Config, c.sendRaw = c'.sendRaw → c.padLen = c'.padLen →
    c.fixedDebugFields = c'.fixedDebugFields → configWord c = configWord c') ∧
  (∀ s t : State, step s = .next t → t.cfg = s.cfg)

/-- 20_memory.md R55, and the content column of R51: the register map, with PKT packed little-endian. -/
def Obligations.RegisterMap : Prop :=
  ∀ s : State,
    regRead s 0#6 = 0#32 ∧ regRead s 1#6 = statusWord s ∧
    (regRead s 2#6).toNat = s.rawI.toNat ∧ (regRead s 3#6).toNat = s.rawV.toNat ∧
    (regRead s 4#6).toNat = s.sampleI.toNat ∧ (regRead s 5#6).toNat = s.sampleV.toNat ∧
    regRead s 6#6 = s.curUa ∧ regRead s 7#6 = s.voltMv ∧
    (regRead s 8#6).toNat = s.crcOut.toNat ∧ (regRead s 9#6).toNat = s.txCursor.toNat ∧
    (∀ k, k < 4 → (regRead s 10#6).extractLsb' (8 * k) 8 = memRead s.pkt k ∧
      (regRead s 11#6).extractLsb' (8 * k) 8 = memRead s.pkt (4 + k)) ∧
    regRead s 12#6 = configWord s.cfg ∧
    (∀ idx : RegIdx, 13 ≤ idx.toNat → regRead s idx = 0#32)

/-! ### Encoding -/

/-- 30_encoding.md R70, R73, R78: every well-formed instruction is what its encoding decodes to, with
every operand value the encoding admits. -/
def Obligations.DecodeOfEncodeIsTheInstruction : Prop :=
  ∀ (frameLen : Nat) (i : Instr), i.wellFormed frameLen = true →
    decode frameLen (encode i) = .ok i

/-- 30_encoding.md R73, R78: what decodes is well-formed, and no other encoding stands for it: no bit is
dropped. -/
def Obligations.DecodedEncodingsAreCanonical : Prop :=
  ∀ (frameLen : Nat) (e : Encoded) (i : Instr), decode frameLen e = .ok i →
    encode i = e ∧ i.wellFormed frameLen = true

/-- 30_encoding.md R73: a word is legal exactly when it matches a row of the table with the row's extra
condition, and no two rows overlap. -/
def Obligations.LegalWordsAreTheTableRows : Prop :=
  (∀ (frameLen : Nat) (w : Word),
    (∃ i, decodeCommand frameLen w = .ok i) ↔
      (w ∈ [0x00000000#32, 0x00000001#32, 0x00000002#32, 0x00000003#32, 0x00000006#32,
            0x00000007#32, 0x00000009#32] ∨
        w &&& 0x0000FFFF#32 = 0x00000004#32 ∨ w &&& 0x0000FFFF#32 = 0x00000005#32 ∨
        (w &&& 0x0000FFFF#32 = 0x00000008#32 ∧ (w.extractLsb' 16 16).toNat ≤ frameLen))) ∧
  (∀ (frameLen : Nat) (w : Word),
    (∃ i, decodeCommand frameLen w = .ok i) ↔ ∃ row ∈ opcodeRows, row.accepts frameLen w = true) ∧
  (∀ w : Word, (opcodeRows.filter fun row => w &&& row.mask == row.pattern).length ≤ 1)

/-- 30_encoding.md R75: a word is illegal exactly under the four conditions. -/
def Obligations.IllegalWordsAreExactlyTheListed : Prop :=
  ∀ (frameLen : Nat) (w : Word),
    (∃ e, decodeCommand frameLen w = .error e) ↔
      ((w.extractLsb' 8 8 ≠ 0#8) ∨ (0x0A ≤ (w.extractLsb' 0 8).toNat) ∨
        ((w.extractLsb' 0 8).toNat ∈ [0x00, 0x01, 0x02, 0x03, 0x06, 0x07, 0x09] ∧
          w.extractLsb' 16 16 ≠ 0#16) ∨
        (w.extractLsb' 0 8 = 0x08#8 ∧ frameLen < (w.extractLsb' 16 16).toNat))

/-- Words written out from 30_encoding.md R73 and the vectors V-E1 to V-E13 of 95_test_vectors.md. -/
def Obligations.WrittenWordsDecode : Prop :=
  decodeCommand 6 0x00000000#32 = .ok .nop ∧ decodeCommand 6 0x00000001#32 = .ok .consume ∧
  decodeCommand 6 0x00000002#32 = .ok .convI ∧ decodeCommand 6 0x00000003#32 = .ok .convV ∧
  decodeCommand 6 0xFFFF0004#32 = .ok (.convIImm 0xFFFF#16) ∧
  decodeCommand 6 0x12340005#32 = .ok (.convVImm 0x1234#16) ∧
  decodeCommand 6 0x00000006#32 = .ok .build ∧ decodeCommand 6 0x00000007#32 = .ok .startSend ∧
  decodeCommand 6 0x00060008#32 = .ok (.crcSpan 6#16) ∧
  decodeCommand 8 0x00070008#32 = .ok (.crcSpan 7#16) ∧
  decodeCommand 6 0x00000009#32 = .ok .wfi ∧
  decodeCommand 6 0x00010000#32 = .error .operandNotZero ∧
  decodeCommand 6 0x00000100#32 = .error .reservedNotZero ∧
  decodeCommand 6 0x0000000A#32 = .error .unknownOpcode ∧
  decodeCommand 6 0x000000FF#32 = .error .unknownOpcode ∧
  decodeCommand 6 0x00070008#32 = .error .spanTooLong ∧
  decodeCommand 8 0x00090008#32 = .error .spanTooLong ∧
  decodeCommand 6 0x00000109#32 = .error .reservedNotZero ∧
  decodeCommand 6 0x00020007#32 = .error .operandNotZero

/-- 30_encoding.md R78: the event records, and the refusal of every other record. -/
def Obligations.EventRecordsDecodeOrAreRefused : Prop :=
  decodeEvent ⟨0x1#4, 0#32⟩ = .ok .evtTrig ∧
  (∀ codeI codeV : Code, decodeEvent ⟨0x2#4, codeV ++ codeI⟩ = .ok (.evtConvDone codeI codeV)) ∧
  decodeEvent ⟨0x3#4, 0#32⟩ = .ok .evtByteReady ∧
  decodeEvent ⟨0x4#4, 0#32⟩ = .ok .evtTxTake ∧
  decodeEvent ⟨0x5#4, 0#32⟩ = .ok .evtFault ∧
  (∀ (s : State) (rest : List Turn) (r : EventRecord), s.schedule = .event r :: rest →
    (r.ev.toNat ∉ [1, 2, 3, 4, 5] → step s = .refused (.unknownEvent r.ev)) ∧
    (r.ev.toNat ∈ [1, 3, 4, 5] → r.payload ≠ 0#32 →
      step s = .refused (.payloadNotZero r.ev r.payload)))

/-- 30_encoding.md R79: the assembler never produces an illegal word from a mnemonic. -/
def Obligations.AssemblerProducesLegalWords : Prop :=
  ∀ (c : Config) (line : String) (items : List TraceItem) (w : Word),
    assembleLine c.frameLen line = .ok items →
    (lineWords [] line.toList).head? ≠ some ".word".toList →
    .command w ∈ items → ∃ i, decodeCommand c.frameLen w = .ok i

/-- 30_encoding.md R80: the pseudo-instructions and what they expand to. -/
def Obligations.PseudoInstructionsExpand : Prop :=
  ∀ c : Config,
    assembleLine c.frameLen "CONV_BOTH" = .ok [.command 0x00000002#32, .command 0x00000003#32] ∧
    assembleLine c.frameLen "FRAME_SEND" = .ok [.command 0x00000006#32, .command 0x00000007#32] ∧
    assembleLine c.frameLen "CRC_FRAME" = .ok [.command 0x00050008#32]

/-! ### Who writes what -/

/-- 10_state.md R22 to R25, R32: the only instructions that change each datapath register. -/
def Obligations.DatapathRegistersHaveTheirWritersOnly : Prop :=
  ∀ (i : Instr) (s t : State), exec i s = .next t →
    (t.rawI ≠ s.rawI ∨ t.rawV ≠ s.rawV →
      ∃ codeI codeV, i = .evtConvDone codeI codeV ∧ t.rawI = codeI ∧ t.rawV = codeV) ∧
    (t.sampleI ≠ s.sampleI ∨ t.sampleV ≠ s.sampleV →
      i = .consume ∧ s.ready = true ∧ t.sampleI = s.rawI ∧ t.sampleV = s.rawV) ∧
    (t.curUa ≠ s.curUa → i = .convI ∨ ∃ code, i = .convIImm code) ∧
    (t.voltMv ≠ s.voltMv → i = .convV ∨ ∃ code, i = .convVImm code) ∧
    (t.crcOut ≠ s.crcOut → ∃ n, i = .crcSpan n) ∧
    (t.consumed ≠ s.consumed → i = .consume ∧ t.consumed = s.ready)

/-- 10_state.md R26: only BUILD changes a packet byte, and only bytes 0 to FRAME_LEN - 1. -/
def Obligations.OnlyBuildWritesThePacket : Prop :=
  ∀ (i : Instr) (s t : State), exec i s = .next t →
    (i ≠ .build → ∀ a, memRead t.pkt a = memRead s.pkt a) ∧
    (i = .build → s.pkt.wf = true →
      ∀ a, s.cfg.frameLen ≤ a → memRead t.pkt a = memRead s.pkt a)

/-- 43_transmitter.md R160: the only transitions of TX_STATE, TX_CURSOR and TXIE. -/
def Obligations.OnlyTheFourTransitionsMoveTheEngine : Prop :=
  ∀ (i : Instr) (s t : State), BlockInv s → exec i s = .next t →
    (t.txState = s.txState ∧ t.txCursor = s.txCursor ∧ t.txie = s.txie) ∨
    (i = .startSend ∧ s.txState = .idle ∧ s.txEmpty = true ∧
      t.txState = .sending ∧ t.txCursor = 1#4 ∧ t.txie = true) ∨
    (i = .evtByteReady ∧ s.txState = .sending ∧ s.txEmpty = true ∧
      s.txCursor.toNat + 1 < s.cfg.frameLen ∧ t.txState = .sending ∧
      t.txCursor = s.txCursor + 1#4 ∧ t.txie = true) ∨
    (i = .evtByteReady ∧ s.txState = .sending ∧ s.txEmpty = true ∧
      s.txCursor.toNat + 1 = s.cfg.frameLen ∧ t.txState = .idle ∧ t.txCursor = 0#4 ∧ t.txie = false)

/-- 10_state.md R30, R31, 44_handoff.md R189: READY rises only in an accepted completion and falls only in
CONSUME; CONV_BUSY rises only in an accepted trigger, with the one conv_start pulse, and falls only in an
accepted completion. -/
def Obligations.HandoffFlagsHaveTheirWritersOnly : Prop :=
  ∀ (i : Instr) (s t : State), exec i s = .next t →
    (s.ready = false → t.ready = true →
      s.convBusy = true ∧ ∃ codeI codeV, i = .evtConvDone codeI codeV) ∧
    (s.ready = true → t.ready = false → i = .consume) ∧
    (s.convBusy = false → t.convBusy = true →
      i = .evtTrig ∧ convStarts t.outputs = convStarts s.outputs + 1) ∧
    (s.convBusy = true → t.convBusy = false → ∃ codeI codeV, i = .evtConvDone codeI codeV) ∧
    (t.convBusy = s.convBusy ∨ s.convBusy = true → convStarts t.outputs = convStarts s.outputs)

/-- 44_handoff.md R185: what wakes a waiting consumer, that nothing else does, and that a wake with
WAITING = 0 changes nothing. A command, or a masked byte-ready, has no step while WAITING = 1 (00_scope.md
R14, 44_handoff.md R181); that exec then answers the same state is the model's convention (log entry 5). -/
def Obligations.OnlyWakingEventsEndTheWait : Prop :=
  (∀ (i : Instr) (s : State), BlockInv s → s.waiting = true →
    ∃ t, exec i s = .next t ∧
      (t.waiting = false ↔
        s.halted = false ∧
          (i = .evtTrig ∨
            (∃ codeI codeV, i = .evtConvDone codeI codeV ∧ s.convBusy = true) ∨
            (i = .evtByteReady ∧ s.txie = true ∧ s.txEmpty = true)))) ∧
  (∀ s : State, s.waiting = false → wake s = s)

/-- The model's own record of the wake port (60_exceptions.md R223; log entry 6): a strobe exactly where
an instruction ends a consumer wait. -/
def Obligations.WakeStrobesExactlyWhereAWaitEnds : Prop :=
  ∀ (i : Instr) (s t : State), exec i s = .next t →
    wakes t.outputs = wakes s.outputs + (if s.waiting = true ∧ t.waiting = false then 1 else 0)

/-- 10_state.md R34, R35: the error bits and HALTED are sticky until reset, and what sets each one. So a
fault outcome of 60_exceptions.md R212 and R215 stays one: no run from it without a reset is a safe run
(log entry 10). -/
def Obligations.ErrorBitsAreStickyUntilReset : Prop :=
  (∀ s t : State, step s = .next t → s.schedule.head? ≠ some .reset →
    (s.errIllegal = true → t.errIllegal = true) ∧
    (s.errBuildBusy = true → t.errBuildBusy = true) ∧ (s.halted = true → t.halted = true)) ∧
  (∀ (i : Instr) (s t : State), i.wellFormed s.cfg.frameLen = true → exec i s = .next t →
    t.errIllegal = s.errIllegal ∧
    (s.errBuildBusy = false → t.errBuildBusy = true → i = .build ∧ s.txState = .sending) ∧
    (s.halted = false → t.halted = true → i = .evtFault)) ∧
  (∀ (k : Nat) (s : State), faulted s = true → .reset ∉ s.schedule.take k → ¬ safeRun k s)

/-- 60_exceptions.md R217: taking another event first loses no byte-ready: its level stays deliverable. -/
def Obligations.ByteReadyLevelSurvivesOtherEvents : Prop :=
  ∀ (i : Instr) (s t : State), i.isCommand = false → i ≠ .evtByteReady →
    enabled .evtByteReady s = true → exec i s = .next t → enabled .evtByteReady t = true

/-- 70_reset_and_hazards.md R250, 60_exceptions.md R212: a BUILD while Sending at cursor k records the
error and leaves the bytes already emitted; PKT then holds the new frame, that of the current fields, and
the bytes still to come are those of the new frame from k on. -/
def Obligations.BuildWhileSendingMixesTwoFrames : Prop :=
  ∀ s : State, mayAct s → s.pkt.wf = true → s.txState = .sending →
    ∃ t, exec .build s = .next t ∧ t.errBuildBusy = true ∧
      t.txLine ++ inFlight t = s.txLine ++ inFlight s ∧
      t.txState = .sending ∧ t.txCursor = s.txCursor ∧ t.txie = s.txie ∧
      IsFrame t.cfg t.pkt ∧ frameOf t = frameBytes s.cfg (currentField s) (voltageField s) ∧
      unsent t = (frameBytes s.cfg (currentField s) (voltageField s)).drop s.txCursor.toNat

/-! ### Memory -/

/-- The model's packet memory (log entry 7): a read after a write, every other byte, and the canonical
form, in which equal memories are equal data. -/
def Obligations.PacketMemoryIsCanonical : Prop :=
  (∀ (m : Memory) (a b : Nat) (v : Byte), m.wf = true →
    memRead (memWrite m a v) b = if b = a then v else memRead m b) ∧
  (∀ (m : Memory) (a : Nat) (v : Byte), m.wf = true → (memWrite m a v).wf = true) ∧
  (∀ m m' : Memory, m.wf = true → m'.wf = true → (∀ a, memRead m a = memRead m' a) → m = m')

/-! ### The invariant -/

/-- 10_state.md R41, 43_transmitter.md R165: the invariant holds right after reset, under every
configuration. -/
def Obligations.InvariantHoldsAfterReset : Prop :=
  BlockInv State.reset ∧ ∀ c : Config, BlockInv (State.resetWith c)

/-- 43_transmitter.md R165, 10_state.md R26, R28, R29, 42_framer.md R143, 60_exceptions.md R222: every
step, whatever agent takes it, keeps the invariant. -/
def Obligations.EveryStepKeepsTheInvariant : Prop :=
  ∀ s t : State, BlockInv s → step s = .next t → BlockInv t

/-- Where the invariant holds, exec neither faults nor refuses: it answers a next state. An instruction
whose guard is false has no step (00_scope.md R14, 44_handoff.md R181); that exec then answers the same
state is the model's convention (log entry 5). The only fault is the model's own (log entry 7): a
byte-ready whose cursor points beyond PKT[7]. -/
def Obligations.EveryInstructionAnswersANextState : Prop :=
  (∀ (i : Instr) (s : State), BlockInv s → ∃ t, exec i s = .next t) ∧
  (∀ (i : Instr) (s : State) (r : Fault), exec i s = .fault r ↔
    r = .noSuchPacketByte ∧ i = .evtByteReady ∧ s.halted = false ∧ s.txie = true ∧
      s.txEmpty = true ∧ 8 ≤ s.txCursor.toNat) ∧
  (∀ (i : Instr) (s : State) (r : Refusal), exec i s ≠ .refused r)

/-! ### Transmission -/

/-- 43_transmitter.md R165, R166, one step: as long as no BUILD runs into a frame in progress, a step
either leaves the byte stream of the line as it is, or starts a frame and appends exactly its bytes. -/
def Obligations.EveryStepConservesTheByteStream : Prop :=
  ∀ s t : State, BlockInv s → step s = .next t → s.schedule.head? ≠ some .reset →
    t.errBuildBusy = false →
    (byteStream t = byteStream s ∧ ¬ (s.txState = .idle ∧ t.txState = .sending)) ∨
    (s.txState = .idle ∧ t.txState = .sending ∧ byteStream t = byteStream s ++ frameOf s)

/-- 43_transmitter.md R166: from the step that takes the engine from Idle to Sending with PKT = P, through
any turns of any agents that keep it Sending, to the step that returns it to Idle, with no BUILD in
between: the engine has emitted exactly P[0] .. P[FRAME_LEN-1] in order, the line gains them as the
transport takes them, and TXIE = 0. -/
def Obligations.FrameIsEmittedWholeAndInOrder : Prop :=
  ∀ (k : Nat) (s s1 t : State), BlockInv s → step s = .next s1 →
    s.txState = .idle → s1.txState = .sending →
    (∀ n, n < k → ∃ u, runSteps n s1 = .next u ∧ u.txState = .sending ∧
      u.schedule.head? ≠ some .reset) →
    runSteps k s1 = .next t → t.txState = .idle → t.errBuildBusy = false →
    t.txie = false ∧
    txStrobes t.outputs = txStrobes s.outputs ++ frameOf s ∧
    t.txLine ++ inFlight t = s.txLine ++ inFlight s ++ frameOf s

/-- 43_transmitter.md R163, R168: a frame in progress completes when the transport keeps taking bytes and
asking for the next, FRAME_LEN - TX_CURSOR times, and those steps raise no fault outcome; what the line
then holds is claimed under ERR_BUILD_BUSY = 0 (60_exceptions.md R212). No timeout and no other event
ends the frame. -/
def Obligations.FrameCompletesWithTheTransport : Prop :=
  (∀ (s : State) (rest : List Turn), BlockInv s → s.halted = false → s.txState = .sending →
    s.txEmpty = false →
    s.schedule = transportRounds (s.cfg.frameLen - s.txCursor.toNat) ++ rest →
    ∃ t, runSteps (2 * (s.cfg.frameLen - s.txCursor.toNat)) s = .next t ∧
      t.txState = .idle ∧ t.txie = false ∧ t.txCursor = 0#4 ∧ t.schedule = rest ∧
      faulted t = faulted s ∧
      (s.errBuildBusy = false → t.txLine ++ inFlight t = byteStream s)) ∧
  (∀ s t : State, BlockInv s → step s = .next t → s.txState = .sending →
    s.schedule.head? ≠ some .reset → s.schedule.head? ≠ some (.event byteReadyRecord) →
    t.txState = .sending)

/-! ### Handoff -/

/-- 20_memory.md R63, 44_handoff.md R189: after an accepted completion, through any turns of any agents
but a reset or another completion, RAW holds its two codes, and they are either unread or in SAMPLE; a
CONSUME that finds READY = 1 snapshots exactly them. -/
def Obligations.LatestCompletionIsHandedOver : Prop :=
  ∀ (k : Nat) (s t : State) (codeI codeV : Code) (rest : List Turn),
    s.halted = false → s.convBusy = true →
    s.schedule = .event (convDoneRecord codeI codeV) :: rest →
    (∀ turn ∈ rest.take k, keepsRaw turn = true) →
    runSteps (k + 1) s = .next t →
    handedOver codeI codeV t ∧
    (mayAct t → t.ready = true →
      ∃ u, exec .consume t = .next u ∧ u.sampleI = codeI ∧ u.sampleV = codeV ∧ u.ready = false)

/-- 44_handoff.md R189: no torn read. Whatever property every completion's pair of codes has, and the
reset pair (0, 0) too, the pairs in RAW and in SAMPLE have it after every step. -/
def Obligations.NoTornPairOfCodes : Prop :=
  ∀ (P : Code → Code → Prop) (s t : State), P 0#16 0#16 →
    P s.rawI s.rawV → P s.sampleI s.sampleV →
    (∀ codeI codeV, s.schedule.head? = some (.event (convDoneRecord codeI codeV)) → P codeI codeV) →
    step s = .next t → P t.rawI t.rawV ∧ P t.sampleI t.sampleV

/-- 44_handoff.md R190, the cycle in the order the rule gives, up to START_SEND, for converted fields: from
every state of the invariant in which the engine is Idle and no conversion runs, the line is owed exactly
the frame of the two codes, converted in two floor stages and truncated to 16 bits. The cycle raises no
fault outcome; the bytes are claimed under ERR_BUILD_BUSY = 0 (60_exceptions.md R212). -/
def Obligations.SamplingCycleSendsTheConvertedFrame : Prop :=
  ∀ (s : State) (codeI codeV cf vf : Code), BlockInv s → s.halted = false → s.convBusy = false →
    s.txState = .idle → s.txEmpty = true →
    s.cfg.sendRaw = false → s.cfg.fixedDebugFields = false →
    cf = BitVec.ofNat 16
      ((codeI.toNat * s.cfg.vrefMv / s.cfg.fullScale) * s.cfg.iNum / s.cfg.iDen) →
    vf = BitVec.ofNat 16
      ((codeV.toNat * s.cfg.vrefMv / s.cfg.fullScale) * s.cfg.vNum / s.cfg.vDen) →
    ∃ s1 s2 s3 s4 s5 s6 t,
      exec .evtTrig s = .next s1 ∧ exec (.evtConvDone codeI codeV) s1 = .next s2 ∧
      exec .consume s2 = .next s3 ∧ s3.consumed = true ∧
      exec .convI s3 = .next s4 ∧ exec .convV s4 = .next s5 ∧
      exec .build s5 = .next s6 ∧ exec .startSend s6 = .next t ∧
      t.txState = .sending ∧ t.errBuildBusy = s.errBuildBusy ∧ faulted t = faulted s ∧
      (s.errBuildBusy = false →
        byteStream t = byteStream s ++
          [0xA5#8, vf.extractLsb' 0 8, vf.extractLsb' 8 8, cf.extractLsb' 0 8, cf.extractLsb' 8 8,
            crc8 s.cfg.crcXorOut
              [0xA5#8, vf.extractLsb' 0 8, vf.extractLsb' 8 8, cf.extractLsb' 0 8,
                cf.extractLsb' 8 8]] ++
          List.replicate s.cfg.padLen.bytes s.cfg.padByte)
end

