-- ==== Sys2Proof/Laws/Decode.lean ====
section
/-! SUPPORT. What the decoders answer, once. -/

namespace Sys2Proof

theorem noOperand_ok {imm : Code} {i j : Instr} (h : noOperand imm i = .ok j) :
    j = i ∧ imm = 0#16 := by
  unfold noOperand at h
  split at h
  · next hi => cases h; exact ⟨rfl, hi⟩
  · cases h

theorem noPayload_ok {r : EventRecord} {i j : Instr} (h : noPayload r i = .ok j) :
    j = i ∧ r.payload = 0#32 := by
  unfold noPayload at h
  split at h
  · next hp => cases h; exact ⟨rfl, hp⟩
  · cases h

/-- The inversion of the command decoder: RSV is 0, and OP and IMM16 are those of one row. -/
theorem decodeCommand_ok {frameLen : Nat} {w : Word} {i : Instr}
    (h : decodeCommand frameLen w = .ok i) :
    rsvField w = 0#8 ∧
      ((i = .nop ∧ (opField w).toNat = 0 ∧ immField w = 0#16) ∨
       (i = .consume ∧ (opField w).toNat = 1 ∧ immField w = 0#16) ∨
       (i = .convI ∧ (opField w).toNat = 2 ∧ immField w = 0#16) ∨
       (i = .convV ∧ (opField w).toNat = 3 ∧ immField w = 0#16) ∨
       (i = .convIImm (immField w) ∧ (opField w).toNat = 4) ∨
       (i = .convVImm (immField w) ∧ (opField w).toNat = 5) ∨
       (i = .build ∧ (opField w).toNat = 6 ∧ immField w = 0#16) ∨
       (i = .startSend ∧ (opField w).toNat = 7 ∧ immField w = 0#16) ∨
       (i = .crcSpan (immField w) ∧ (opField w).toNat = 8 ∧ (immField w).toNat ≤ frameLen) ∨
       (i = .wfi ∧ (opField w).toNat = 9 ∧ immField w = 0#16)) := by
  unfold decodeCommand decodeFields at h
  split at h
  · cases h
  · next hr =>
    refine ⟨by simpa using hr, ?_⟩
    split at h
    · next ho => simp [noOperand_ok h, ho]
    · next ho => simp [noOperand_ok h, ho]
    · next ho => simp [noOperand_ok h, ho]
    · next ho => simp [noOperand_ok h, ho]
    · next ho => cases h; simp [ho]
    · next ho => cases h; simp [ho]
    · next ho => simp [noOperand_ok h, ho]
    · next ho => simp [noOperand_ok h, ho]
    · next ho =>
      split at h
      · next hn => cases h; simp [ho, hn]
      · cases h
    · next ho => simp [noOperand_ok h, ho]
    · cases h

theorem decodeCommand_isCommand {frameLen : Nat} {w : Word} {i : Instr}
    (h : decodeCommand frameLen w = .ok i) : i.isCommand = true := by
  rcases (decodeCommand_ok h).2 with h | h | h | h | h | h | h | h | h | h <;> rw [h.1] <;> rfl

theorem decodeCommand_wellFormed {frameLen : Nat} {w : Word} {i : Instr}
    (h : decodeCommand frameLen w = .ok i) : i.wellFormed frameLen = true := by
  rcases (decodeCommand_ok h).2 with h | h | h | h | h | h | h | h | h | h <;>
    simp [h.1, Instr.wellFormed]
  exact h.2.2

/-- The inversion of the event decoder. -/
theorem decodeEvent_ok {r : EventRecord} {i : Instr} (h : decodeEvent r = .ok i) :
    (i = .evtTrig ∧ r = ⟨0x1#4, 0#32⟩) ∨
    (i = .evtConvDone (codeIField r.payload) (codeVField r.payload) ∧ r.ev = 0x2#4) ∨
    (i = .evtByteReady ∧ r = ⟨0x3#4, 0#32⟩) ∨
    (i = .evtTxTake ∧ r = ⟨0x4#4, 0#32⟩) ∨
    (i = .evtFault ∧ r = ⟨0x5#4, 0#32⟩) := by
  obtain ⟨ev, payload⟩ := r
  unfold decodeEvent at h
  have hev : ∀ n, n < 16 → ev.toNat = n → ev = BitVec.ofNat 4 n := by
    intro n hn he; apply BitVec.eq_of_toNat_eq; simp [he]; omega
  split at h
  · next he => have := noPayload_ok h; simp_all [hev 1 (by decide) he]
  · next he => cases h; simp_all [hev 2 (by decide) he]
  · next he => have := noPayload_ok h; simp_all [hev 3 (by decide) he]
  · next he => have := noPayload_ok h; simp_all [hev 4 (by decide) he]
  · next he => have := noPayload_ok h; simp_all [hev 5 (by decide) he]
  · cases h

theorem decodeEvent_isEvent {r : EventRecord} {i : Instr} (h : decodeEvent r = .ok i) :
    i.isCommand = false := by
  rcases decodeEvent_ok h with h | h | h | h | h <;> rw [h.1] <;> rfl

/-- The bits of two halves put together, at the widths the block uses. -/
theorem getLsbD_halves (hi lo : Code) (k : Nat) :
    BitVec.getLsbD (hi ++ lo : Word) k = if k < 16 then lo.getLsbD k else hi.getLsbD (k - 16) :=
  BitVec.getLsbD_append

theorem getLsbD_bytes (hi lo : Byte) (k : Nat) :
    BitVec.getLsbD (hi ++ lo : Code) k = if k < 8 then lo.getLsbD k else hi.getLsbD (k - 8) :=
  BitVec.getLsbD_append

@[simp] theorem extract_low_half (hi lo : Code) : (hi ++ lo : Word).extractLsb' 0 16 = lo := by
  apply BitVec.eq_of_getLsbD_eq
  intro k hk
  simp only [BitVec.getLsbD_extractLsb', Nat.zero_add, getLsbD_halves, hk, decide_true,
    Bool.true_and, if_true]

@[simp] theorem extract_high_half (hi lo : Code) : (hi ++ lo : Word).extractLsb' 16 16 = hi := by
  apply BitVec.eq_of_getLsbD_eq
  intro k hk
  simp only [BitVec.getLsbD_extractLsb', getLsbD_halves, hk, decide_true, Bool.true_and]
  rw [if_neg (by omega), Nat.add_sub_cancel_left]

/-- A field that lies inside the low half. -/
theorem extract_inside_low (hi lo : Code) (a n : Nat) (h : a + n ≤ 16) :
    (hi ++ lo : Word).extractLsb' a n = lo.extractLsb' a n := by
  apply BitVec.eq_of_getLsbD_eq
  intro k hk
  simp only [BitVec.getLsbD_extractLsb', getLsbD_halves]
  rw [if_pos (by omega)]

/-- A field that lies inside the high half. -/
theorem extract_inside_high (hi lo : Code) (a n : Nat) :
    (hi ++ lo : Word).extractLsb' (16 + a) n = hi.extractLsb' a n := by
  apply BitVec.eq_of_getLsbD_eq
  intro k hk
  simp only [BitVec.getLsbD_extractLsb', getLsbD_halves]
  rw [if_neg (by omega), show 16 + a + k - 16 = a + k by omega]

@[simp] theorem extract_low_byte (hi lo : Byte) : (hi ++ lo : Code).extractLsb' 0 8 = lo := by
  apply BitVec.eq_of_getLsbD_eq
  intro k hk
  simp only [BitVec.getLsbD_extractLsb', Nat.zero_add, getLsbD_bytes, hk, decide_true,
    Bool.true_and, if_true]

@[simp] theorem extract_high_byte (hi lo : Byte) : (hi ++ lo : Code).extractLsb' 8 8 = hi := by
  apply BitVec.eq_of_getLsbD_eq
  intro k hk
  simp only [BitVec.getLsbD_extractLsb', getLsbD_bytes, hk, decide_true, Bool.true_and]
  rw [if_neg (by omega), Nat.add_sub_cancel_left]

/-- A word is its two halves. -/
theorem halves_of_word (w : Word) : (w.extractLsb' 16 16 ++ w.extractLsb' 0 16 : Word) = w := by
  apply BitVec.eq_of_getLsbD_eq
  intro k hk
  rw [getLsbD_halves]
  split
  · next h => simp [h]
  · next h =>
    rw [BitVec.getLsbD_extractLsb', show 16 + (k - 16) = k by omega, decide_eq_true (by omega),
      Bool.true_and]

/-- A half is its two bytes. -/
theorem bytes_of_half (c : Code) : (c.extractLsb' 8 8 ++ c.extractLsb' 0 8 : Code) = c := by
  apply BitVec.eq_of_getLsbD_eq
  intro k hk
  rw [getLsbD_bytes]
  split
  · next h => simp [h]
  · next h =>
    rw [BitVec.getLsbD_extractLsb', show 8 + (k - 8) = k by omega, decide_eq_true (by omega),
      Bool.true_and]

/-- The fields of a command word. -/
@[simp] theorem opField_commandWord (op : Byte) (imm : Code) : opField (commandWord op imm) = op := by
  rw [opField, commandWord, extract_inside_low _ _ _ _ (by decide), extract_low_byte]

@[simp] theorem rsvField_commandWord (op : Byte) (imm : Code) :
    rsvField (commandWord op imm) = 0x00#8 := by
  rw [rsvField, commandWord, extract_inside_low _ _ _ _ (by decide), extract_high_byte]

@[simp] theorem immField_commandWord (op : Byte) (imm : Code) :
    immField (commandWord op imm) = imm := by
  rw [immField, commandWord, extract_high_half]

/-- A word is made of its three fields: no bit is dropped. -/
theorem commandWord_fields {w : Word} (h : rsvField w = 0x00#8) :
    commandWord (opField w) (immField w) = w := by
  have hlow : (0x00#8 ++ opField w : Code) = w.extractLsb' 0 16 := by
    apply BitVec.eq_of_getLsbD_eq
    intro k hk
    rw [getLsbD_bytes, ← h]
    simp only [opField, rsvField, BitVec.getLsbD_extractLsb', Nat.zero_add]
    split
    · next hlt => simp [hlt, hk]
    · next hlt =>
      rw [show 8 + (k - 8) = k by omega, decide_eq_true (by omega), decide_eq_true hk]
  rw [commandWord, hlow, immField, halves_of_word]

/-- The payload of a completion. -/
@[simp] theorem codeIField_append (codeV codeI : Code) : codeIField (codeV ++ codeI) = codeI :=
  extract_low_half _ _

@[simp] theorem codeVField_append (codeV codeI : Code) : codeVField (codeV ++ codeI) = codeV :=
  extract_high_half _ _

end Sys2Proof
end

