-- ==== Sys2Proof/Laws/State.lean ====
section
/-! SUPPORT. What each named update leaves in each field of State, true by rfl; and the two updates that
test the state first. -/

namespace Sys2Proof.Machine

variable (s : State)

/-! ### emit -/

@[simp] theorem emit_cfg (b : Byte) : (emit b s).cfg = s.cfg := rfl
@[simp] theorem emit_rawI (b : Byte) : (emit b s).rawI = s.rawI := rfl
@[simp] theorem emit_rawV (b : Byte) : (emit b s).rawV = s.rawV := rfl
@[simp] theorem emit_sampleI (b : Byte) : (emit b s).sampleI = s.sampleI := rfl
@[simp] theorem emit_sampleV (b : Byte) : (emit b s).sampleV = s.sampleV := rfl
@[simp] theorem emit_curUa (b : Byte) : (emit b s).curUa = s.curUa := rfl
@[simp] theorem emit_voltMv (b : Byte) : (emit b s).voltMv = s.voltMv := rfl
@[simp] theorem emit_crcOut (b : Byte) : (emit b s).crcOut = s.crcOut := rfl
@[simp] theorem emit_pkt (b : Byte) : (emit b s).pkt = s.pkt := rfl
@[simp] theorem emit_txState (b : Byte) : (emit b s).txState = s.txState := rfl
@[simp] theorem emit_txCursor (b : Byte) : (emit b s).txCursor = s.txCursor := rfl
@[simp] theorem emit_txie (b : Byte) : (emit b s).txie = s.txie := rfl
@[simp] theorem emit_ready (b : Byte) : (emit b s).ready = s.ready := rfl
@[simp] theorem emit_convBusy (b : Byte) : (emit b s).convBusy = s.convBusy := rfl
@[simp] theorem emit_consumed (b : Byte) : (emit b s).consumed = s.consumed := rfl
@[simp] theorem emit_waiting (b : Byte) : (emit b s).waiting = s.waiting := rfl
@[simp] theorem emit_errIllegal (b : Byte) : (emit b s).errIllegal = s.errIllegal := rfl
@[simp] theorem emit_errBuildBusy (b : Byte) : (emit b s).errBuildBusy = s.errBuildBusy := rfl
@[simp] theorem emit_halted (b : Byte) : (emit b s).halted = s.halted := rfl
@[simp] theorem emit_txEmpty (b : Byte) : (emit b s).txEmpty = false := rfl
@[simp] theorem emit_txHold (b : Byte) : (emit b s).txHold = b := rfl
@[simp] theorem emit_txLine (b : Byte) : (emit b s).txLine = s.txLine := rfl
@[simp] theorem emit_outputs (b : Byte) : (emit b s).outputs = s.outputs ++ [.txData b] := rfl
@[simp] theorem emit_program (b : Byte) : (emit b s).program = s.program := rfl
@[simp] theorem emit_progPos (b : Byte) : (emit b s).progPos = s.progPos := rfl
@[simp] theorem emit_laterRuns (b : Byte) : (emit b s).laterRuns = s.laterRuns := rfl
@[simp] theorem emit_schedule (b : Byte) : (emit b s).schedule = s.schedule := rfl

/-! ### convStart -/

@[simp] theorem convStart_cfg : (convStart s).cfg = s.cfg := rfl
@[simp] theorem convStart_rawI : (convStart s).rawI = s.rawI := rfl
@[simp] theorem convStart_rawV : (convStart s).rawV = s.rawV := rfl
@[simp] theorem convStart_sampleI : (convStart s).sampleI = s.sampleI := rfl
@[simp] theorem convStart_sampleV : (convStart s).sampleV = s.sampleV := rfl
@[simp] theorem convStart_curUa : (convStart s).curUa = s.curUa := rfl
@[simp] theorem convStart_voltMv : (convStart s).voltMv = s.voltMv := rfl
@[simp] theorem convStart_crcOut : (convStart s).crcOut = s.crcOut := rfl
@[simp] theorem convStart_pkt : (convStart s).pkt = s.pkt := rfl
@[simp] theorem convStart_txState : (convStart s).txState = s.txState := rfl
@[simp] theorem convStart_txCursor : (convStart s).txCursor = s.txCursor := rfl
@[simp] theorem convStart_txie : (convStart s).txie = s.txie := rfl
@[simp] theorem convStart_ready : (convStart s).ready = s.ready := rfl
@[simp] theorem convStart_convBusy : (convStart s).convBusy = s.convBusy := rfl
@[simp] theorem convStart_consumed : (convStart s).consumed = s.consumed := rfl
@[simp] theorem convStart_waiting : (convStart s).waiting = s.waiting := rfl
@[simp] theorem convStart_errIllegal : (convStart s).errIllegal = s.errIllegal := rfl
@[simp] theorem convStart_errBuildBusy : (convStart s).errBuildBusy = s.errBuildBusy := rfl
@[simp] theorem convStart_halted : (convStart s).halted = s.halted := rfl
@[simp] theorem convStart_txEmpty : (convStart s).txEmpty = s.txEmpty := rfl
@[simp] theorem convStart_txHold : (convStart s).txHold = s.txHold := rfl
@[simp] theorem convStart_txLine : (convStart s).txLine = s.txLine := rfl
@[simp] theorem convStart_outputs : (convStart s).outputs = s.outputs ++ [.convStart] := rfl
@[simp] theorem convStart_program : (convStart s).program = s.program := rfl
@[simp] theorem convStart_progPos : (convStart s).progPos = s.progPos := rfl
@[simp] theorem convStart_laterRuns : (convStart s).laterRuns = s.laterRuns := rfl
@[simp] theorem convStart_schedule : (convStart s).schedule = s.schedule := rfl

/-! ### wake -/

@[simp] theorem wake_cfg : (wake s).cfg = s.cfg := rfl
@[simp] theorem wake_rawI : (wake s).rawI = s.rawI := rfl
@[simp] theorem wake_rawV : (wake s).rawV = s.rawV := rfl
@[simp] theorem wake_sampleI : (wake s).sampleI = s.sampleI := rfl
@[simp] theorem wake_sampleV : (wake s).sampleV = s.sampleV := rfl
@[simp] theorem wake_curUa : (wake s).curUa = s.curUa := rfl
@[simp] theorem wake_voltMv : (wake s).voltMv = s.voltMv := rfl
@[simp] theorem wake_crcOut : (wake s).crcOut = s.crcOut := rfl
@[simp] theorem wake_pkt : (wake s).pkt = s.pkt := rfl
@[simp] theorem wake_txState : (wake s).txState = s.txState := rfl
@[simp] theorem wake_txCursor : (wake s).txCursor = s.txCursor := rfl
@[simp] theorem wake_txie : (wake s).txie = s.txie := rfl
@[simp] theorem wake_ready : (wake s).ready = s.ready := rfl
@[simp] theorem wake_convBusy : (wake s).convBusy = s.convBusy := rfl
@[simp] theorem wake_consumed : (wake s).consumed = s.consumed := rfl
@[simp] theorem wake_waiting : (wake s).waiting = false := rfl
@[simp] theorem wake_errIllegal : (wake s).errIllegal = s.errIllegal := rfl
@[simp] theorem wake_errBuildBusy : (wake s).errBuildBusy = s.errBuildBusy := rfl
@[simp] theorem wake_halted : (wake s).halted = s.halted := rfl
@[simp] theorem wake_txEmpty : (wake s).txEmpty = s.txEmpty := rfl
@[simp] theorem wake_txHold : (wake s).txHold = s.txHold := rfl
@[simp] theorem wake_txLine : (wake s).txLine = s.txLine := rfl
@[simp] theorem wake_outputs : (wake s).outputs = if s.waiting then s.outputs ++ [.wake] else s.outputs := rfl
@[simp] theorem wake_program : (wake s).program = s.program := rfl
@[simp] theorem wake_progPos : (wake s).progPos = s.progPos := rfl
@[simp] theorem wake_laterRuns : (wake s).laterRuns = s.laterRuns := rfl
@[simp] theorem wake_schedule : (wake s).schedule = s.schedule := rfl

/-! ### putRegData -/

@[simp] theorem putRegData_cfg (w : Word) : (putRegData w s).cfg = s.cfg := rfl
@[simp] theorem putRegData_rawI (w : Word) : (putRegData w s).rawI = s.rawI := rfl
@[simp] theorem putRegData_rawV (w : Word) : (putRegData w s).rawV = s.rawV := rfl
@[simp] theorem putRegData_sampleI (w : Word) : (putRegData w s).sampleI = s.sampleI := rfl
@[simp] theorem putRegData_sampleV (w : Word) : (putRegData w s).sampleV = s.sampleV := rfl
@[simp] theorem putRegData_curUa (w : Word) : (putRegData w s).curUa = s.curUa := rfl
@[simp] theorem putRegData_voltMv (w : Word) : (putRegData w s).voltMv = s.voltMv := rfl
@[simp] theorem putRegData_crcOut (w : Word) : (putRegData w s).crcOut = s.crcOut := rfl
@[simp] theorem putRegData_pkt (w : Word) : (putRegData w s).pkt = s.pkt := rfl
@[simp] theorem putRegData_txState (w : Word) : (putRegData w s).txState = s.txState := rfl
@[simp] theorem putRegData_txCursor (w : Word) : (putRegData w s).txCursor = s.txCursor := rfl
@[simp] theorem putRegData_txie (w : Word) : (putRegData w s).txie = s.txie := rfl
@[simp] theorem putRegData_ready (w : Word) : (putRegData w s).ready = s.ready := rfl
@[simp] theorem putRegData_convBusy (w : Word) : (putRegData w s).convBusy = s.convBusy := rfl
@[simp] theorem putRegData_consumed (w : Word) : (putRegData w s).consumed = s.consumed := rfl
@[simp] theorem putRegData_waiting (w : Word) : (putRegData w s).waiting = s.waiting := rfl
@[simp] theorem putRegData_errIllegal (w : Word) : (putRegData w s).errIllegal = s.errIllegal := rfl
@[simp] theorem putRegData_errBuildBusy (w : Word) : (putRegData w s).errBuildBusy = s.errBuildBusy := rfl
@[simp] theorem putRegData_halted (w : Word) : (putRegData w s).halted = s.halted := rfl
@[simp] theorem putRegData_txEmpty (w : Word) : (putRegData w s).txEmpty = s.txEmpty := rfl
@[simp] theorem putRegData_txHold (w : Word) : (putRegData w s).txHold = s.txHold := rfl
@[simp] theorem putRegData_txLine (w : Word) : (putRegData w s).txLine = s.txLine := rfl
@[simp] theorem putRegData_outputs (w : Word) : (putRegData w s).outputs = s.outputs ++ [.regData w] := rfl
@[simp] theorem putRegData_program (w : Word) : (putRegData w s).program = s.program := rfl
@[simp] theorem putRegData_progPos (w : Word) : (putRegData w s).progPos = s.progPos := rfl
@[simp] theorem putRegData_laterRuns (w : Word) : (putRegData w s).laterRuns = s.laterRuns := rfl
@[simp] theorem putRegData_schedule (w : Word) : (putRegData w s).schedule = s.schedule := rfl

/-! ### raise -/

@[simp] theorem raise_cfg (e : ErrorCause) : (raise e s).cfg = s.cfg := rfl
@[simp] theorem raise_rawI (e : ErrorCause) : (raise e s).rawI = s.rawI := rfl
@[simp] theorem raise_rawV (e : ErrorCause) : (raise e s).rawV = s.rawV := rfl
@[simp] theorem raise_sampleI (e : ErrorCause) : (raise e s).sampleI = s.sampleI := rfl
@[simp] theorem raise_sampleV (e : ErrorCause) : (raise e s).sampleV = s.sampleV := rfl
@[simp] theorem raise_curUa (e : ErrorCause) : (raise e s).curUa = s.curUa := rfl
@[simp] theorem raise_voltMv (e : ErrorCause) : (raise e s).voltMv = s.voltMv := rfl
@[simp] theorem raise_crcOut (e : ErrorCause) : (raise e s).crcOut = s.crcOut := rfl
@[simp] theorem raise_pkt (e : ErrorCause) : (raise e s).pkt = s.pkt := rfl
@[simp] theorem raise_txState (e : ErrorCause) : (raise e s).txState = s.txState := rfl
@[simp] theorem raise_txCursor (e : ErrorCause) : (raise e s).txCursor = s.txCursor := rfl
@[simp] theorem raise_txie (e : ErrorCause) : (raise e s).txie = s.txie := rfl
@[simp] theorem raise_ready (e : ErrorCause) : (raise e s).ready = s.ready := rfl
@[simp] theorem raise_convBusy (e : ErrorCause) : (raise e s).convBusy = s.convBusy := rfl
@[simp] theorem raise_consumed (e : ErrorCause) : (raise e s).consumed = s.consumed := rfl
@[simp] theorem raise_waiting (e : ErrorCause) : (raise e s).waiting = s.waiting := rfl
@[simp] theorem raise_errIllegal (e : ErrorCause) : (raise e s).errIllegal = (s.errIllegal || e == .illegalCommand) := rfl
@[simp] theorem raise_errBuildBusy (e : ErrorCause) : (raise e s).errBuildBusy = (s.errBuildBusy || e == .buildWhileSending) := rfl
@[simp] theorem raise_halted (e : ErrorCause) : (raise e s).halted = (s.halted || e == .fault) := rfl
@[simp] theorem raise_txEmpty (e : ErrorCause) : (raise e s).txEmpty = s.txEmpty := rfl
@[simp] theorem raise_txHold (e : ErrorCause) : (raise e s).txHold = s.txHold := rfl
@[simp] theorem raise_txLine (e : ErrorCause) : (raise e s).txLine = s.txLine := rfl
@[simp] theorem raise_outputs (e : ErrorCause) : (raise e s).outputs = s.outputs := rfl
@[simp] theorem raise_program (e : ErrorCause) : (raise e s).program = s.program := rfl
@[simp] theorem raise_progPos (e : ErrorCause) : (raise e s).progPos = s.progPos := rfl
@[simp] theorem raise_laterRuns (e : ErrorCause) : (raise e s).laterRuns = s.laterRuns := rfl
@[simp] theorem raise_schedule (e : ErrorCause) : (raise e s).schedule = s.schedule := rfl

/-! ### enterSending -/

@[simp] theorem enterSending_cfg : (enterSending s).cfg = s.cfg := rfl
@[simp] theorem enterSending_rawI : (enterSending s).rawI = s.rawI := rfl
@[simp] theorem enterSending_rawV : (enterSending s).rawV = s.rawV := rfl
@[simp] theorem enterSending_sampleI : (enterSending s).sampleI = s.sampleI := rfl
@[simp] theorem enterSending_sampleV : (enterSending s).sampleV = s.sampleV := rfl
@[simp] theorem enterSending_curUa : (enterSending s).curUa = s.curUa := rfl
@[simp] theorem enterSending_voltMv : (enterSending s).voltMv = s.voltMv := rfl
@[simp] theorem enterSending_crcOut : (enterSending s).crcOut = s.crcOut := rfl
@[simp] theorem enterSending_pkt : (enterSending s).pkt = s.pkt := rfl
@[simp] theorem enterSending_txState : (enterSending s).txState = .sending := rfl
@[simp] theorem enterSending_txCursor : (enterSending s).txCursor = 1#4 := rfl
@[simp] theorem enterSending_txie : (enterSending s).txie = true := rfl
@[simp] theorem enterSending_ready : (enterSending s).ready = s.ready := rfl
@[simp] theorem enterSending_convBusy : (enterSending s).convBusy = s.convBusy := rfl
@[simp] theorem enterSending_consumed : (enterSending s).consumed = s.consumed := rfl
@[simp] theorem enterSending_waiting : (enterSending s).waiting = s.waiting := rfl
@[simp] theorem enterSending_errIllegal : (enterSending s).errIllegal = s.errIllegal := rfl
@[simp] theorem enterSending_errBuildBusy : (enterSending s).errBuildBusy = s.errBuildBusy := rfl
@[simp] theorem enterSending_halted : (enterSending s).halted = s.halted := rfl
@[simp] theorem enterSending_txEmpty : (enterSending s).txEmpty = s.txEmpty := rfl
@[simp] theorem enterSending_txHold : (enterSending s).txHold = s.txHold := rfl
@[simp] theorem enterSending_txLine : (enterSending s).txLine = s.txLine := rfl
@[simp] theorem enterSending_outputs : (enterSending s).outputs = s.outputs := rfl
@[simp] theorem enterSending_program : (enterSending s).program = s.program := rfl
@[simp] theorem enterSending_progPos : (enterSending s).progPos = s.progPos := rfl
@[simp] theorem enterSending_laterRuns : (enterSending s).laterRuns = s.laterRuns := rfl
@[simp] theorem enterSending_schedule : (enterSending s).schedule = s.schedule := rfl

/-! ### enterIdle -/

@[simp] theorem enterIdle_cfg : (enterIdle s).cfg = s.cfg := rfl
@[simp] theorem enterIdle_rawI : (enterIdle s).rawI = s.rawI := rfl
@[simp] theorem enterIdle_rawV : (enterIdle s).rawV = s.rawV := rfl
@[simp] theorem enterIdle_sampleI : (enterIdle s).sampleI = s.sampleI := rfl
@[simp] theorem enterIdle_sampleV : (enterIdle s).sampleV = s.sampleV := rfl
@[simp] theorem enterIdle_curUa : (enterIdle s).curUa = s.curUa := rfl
@[simp] theorem enterIdle_voltMv : (enterIdle s).voltMv = s.voltMv := rfl
@[simp] theorem enterIdle_crcOut : (enterIdle s).crcOut = s.crcOut := rfl
@[simp] theorem enterIdle_pkt : (enterIdle s).pkt = s.pkt := rfl
@[simp] theorem enterIdle_txState : (enterIdle s).txState = .idle := rfl
@[simp] theorem enterIdle_txCursor : (enterIdle s).txCursor = 0#4 := rfl
@[simp] theorem enterIdle_txie : (enterIdle s).txie = false := rfl
@[simp] theorem enterIdle_ready : (enterIdle s).ready = s.ready := rfl
@[simp] theorem enterIdle_convBusy : (enterIdle s).convBusy = s.convBusy := rfl
@[simp] theorem enterIdle_consumed : (enterIdle s).consumed = s.consumed := rfl
@[simp] theorem enterIdle_waiting : (enterIdle s).waiting = s.waiting := rfl
@[simp] theorem enterIdle_errIllegal : (enterIdle s).errIllegal = s.errIllegal := rfl
@[simp] theorem enterIdle_errBuildBusy : (enterIdle s).errBuildBusy = s.errBuildBusy := rfl
@[simp] theorem enterIdle_halted : (enterIdle s).halted = s.halted := rfl
@[simp] theorem enterIdle_txEmpty : (enterIdle s).txEmpty = s.txEmpty := rfl
@[simp] theorem enterIdle_txHold : (enterIdle s).txHold = s.txHold := rfl
@[simp] theorem enterIdle_txLine : (enterIdle s).txLine = s.txLine := rfl
@[simp] theorem enterIdle_outputs : (enterIdle s).outputs = s.outputs := rfl
@[simp] theorem enterIdle_program : (enterIdle s).program = s.program := rfl
@[simp] theorem enterIdle_progPos : (enterIdle s).progPos = s.progPos := rfl
@[simp] theorem enterIdle_laterRuns : (enterIdle s).laterRuns = s.laterRuns := rfl
@[simp] theorem enterIdle_schedule : (enterIdle s).schedule = s.schedule := rfl

/-! ### dropTurn -/

@[simp] theorem dropTurn_cfg : (dropTurn s).cfg = s.cfg := rfl
@[simp] theorem dropTurn_rawI : (dropTurn s).rawI = s.rawI := rfl
@[simp] theorem dropTurn_rawV : (dropTurn s).rawV = s.rawV := rfl
@[simp] theorem dropTurn_sampleI : (dropTurn s).sampleI = s.sampleI := rfl
@[simp] theorem dropTurn_sampleV : (dropTurn s).sampleV = s.sampleV := rfl
@[simp] theorem dropTurn_curUa : (dropTurn s).curUa = s.curUa := rfl
@[simp] theorem dropTurn_voltMv : (dropTurn s).voltMv = s.voltMv := rfl
@[simp] theorem dropTurn_crcOut : (dropTurn s).crcOut = s.crcOut := rfl
@[simp] theorem dropTurn_pkt : (dropTurn s).pkt = s.pkt := rfl
@[simp] theorem dropTurn_txState : (dropTurn s).txState = s.txState := rfl
@[simp] theorem dropTurn_txCursor : (dropTurn s).txCursor = s.txCursor := rfl
@[simp] theorem dropTurn_txie : (dropTurn s).txie = s.txie := rfl
@[simp] theorem dropTurn_ready : (dropTurn s).ready = s.ready := rfl
@[simp] theorem dropTurn_convBusy : (dropTurn s).convBusy = s.convBusy := rfl
@[simp] theorem dropTurn_consumed : (dropTurn s).consumed = s.consumed := rfl
@[simp] theorem dropTurn_waiting : (dropTurn s).waiting = s.waiting := rfl
@[simp] theorem dropTurn_errIllegal : (dropTurn s).errIllegal = s.errIllegal := rfl
@[simp] theorem dropTurn_errBuildBusy : (dropTurn s).errBuildBusy = s.errBuildBusy := rfl
@[simp] theorem dropTurn_halted : (dropTurn s).halted = s.halted := rfl
@[simp] theorem dropTurn_txEmpty : (dropTurn s).txEmpty = s.txEmpty := rfl
@[simp] theorem dropTurn_txHold : (dropTurn s).txHold = s.txHold := rfl
@[simp] theorem dropTurn_txLine : (dropTurn s).txLine = s.txLine := rfl
@[simp] theorem dropTurn_outputs : (dropTurn s).outputs = s.outputs := rfl
@[simp] theorem dropTurn_program : (dropTurn s).program = s.program := rfl
@[simp] theorem dropTurn_progPos : (dropTurn s).progPos = s.progPos := rfl
@[simp] theorem dropTurn_laterRuns : (dropTurn s).laterRuns = s.laterRuns := rfl
@[simp] theorem dropTurn_schedule : (dropTurn s).schedule = s.schedule.tail := rfl

/-! ### nextAccess -/

@[simp] theorem nextAccess_cfg : (nextAccess s).cfg = s.cfg := rfl
@[simp] theorem nextAccess_rawI : (nextAccess s).rawI = s.rawI := rfl
@[simp] theorem nextAccess_rawV : (nextAccess s).rawV = s.rawV := rfl
@[simp] theorem nextAccess_sampleI : (nextAccess s).sampleI = s.sampleI := rfl
@[simp] theorem nextAccess_sampleV : (nextAccess s).sampleV = s.sampleV := rfl
@[simp] theorem nextAccess_curUa : (nextAccess s).curUa = s.curUa := rfl
@[simp] theorem nextAccess_voltMv : (nextAccess s).voltMv = s.voltMv := rfl
@[simp] theorem nextAccess_crcOut : (nextAccess s).crcOut = s.crcOut := rfl
@[simp] theorem nextAccess_pkt : (nextAccess s).pkt = s.pkt := rfl
@[simp] theorem nextAccess_txState : (nextAccess s).txState = s.txState := rfl
@[simp] theorem nextAccess_txCursor : (nextAccess s).txCursor = s.txCursor := rfl
@[simp] theorem nextAccess_txie : (nextAccess s).txie = s.txie := rfl
@[simp] theorem nextAccess_ready : (nextAccess s).ready = s.ready := rfl
@[simp] theorem nextAccess_convBusy : (nextAccess s).convBusy = s.convBusy := rfl
@[simp] theorem nextAccess_consumed : (nextAccess s).consumed = s.consumed := rfl
@[simp] theorem nextAccess_waiting : (nextAccess s).waiting = s.waiting := rfl
@[simp] theorem nextAccess_errIllegal : (nextAccess s).errIllegal = s.errIllegal := rfl
@[simp] theorem nextAccess_errBuildBusy : (nextAccess s).errBuildBusy = s.errBuildBusy := rfl
@[simp] theorem nextAccess_halted : (nextAccess s).halted = s.halted := rfl
@[simp] theorem nextAccess_txEmpty : (nextAccess s).txEmpty = s.txEmpty := rfl
@[simp] theorem nextAccess_txHold : (nextAccess s).txHold = s.txHold := rfl
@[simp] theorem nextAccess_txLine : (nextAccess s).txLine = s.txLine := rfl
@[simp] theorem nextAccess_outputs : (nextAccess s).outputs = s.outputs := rfl
@[simp] theorem nextAccess_program : (nextAccess s).program = s.program := rfl
@[simp] theorem nextAccess_progPos : (nextAccess s).progPos = s.progPos + 1 := rfl
@[simp] theorem nextAccess_laterRuns : (nextAccess s).laterRuns = s.laterRuns := rfl
@[simp] theorem nextAccess_schedule : (nextAccess s).schedule = s.schedule := rfl

/-! ### setCurrent -/

@[simp] theorem setCurrent_cfg (code : Code) : (setCurrent code s).cfg = s.cfg := rfl
@[simp] theorem setCurrent_rawI (code : Code) : (setCurrent code s).rawI = s.rawI := rfl
@[simp] theorem setCurrent_rawV (code : Code) : (setCurrent code s).rawV = s.rawV := rfl
@[simp] theorem setCurrent_sampleI (code : Code) : (setCurrent code s).sampleI = s.sampleI := rfl
@[simp] theorem setCurrent_sampleV (code : Code) : (setCurrent code s).sampleV = s.sampleV := rfl
@[simp] theorem setCurrent_curUa (code : Code) : (setCurrent code s).curUa = BitVec.ofNat 32 (rawToCurrent s.cfg code) := rfl
@[simp] theorem setCurrent_voltMv (code : Code) : (setCurrent code s).voltMv = s.voltMv := rfl
@[simp] theorem setCurrent_crcOut (code : Code) : (setCurrent code s).crcOut = s.crcOut := rfl
@[simp] theorem setCurrent_pkt (code : Code) : (setCurrent code s).pkt = s.pkt := rfl
@[simp] theorem setCurrent_txState (code : Code) : (setCurrent code s).txState = s.txState := rfl
@[simp] theorem setCurrent_txCursor (code : Code) : (setCurrent code s).txCursor = s.txCursor := rfl
@[simp] theorem setCurrent_txie (code : Code) : (setCurrent code s).txie = s.txie := rfl
@[simp] theorem setCurrent_ready (code : Code) : (setCurrent code s).ready = s.ready := rfl
@[simp] theorem setCurrent_convBusy (code : Code) : (setCurrent code s).convBusy = s.convBusy := rfl
@[simp] theorem setCurrent_consumed (code : Code) : (setCurrent code s).consumed = s.consumed := rfl
@[simp] theorem setCurrent_waiting (code : Code) : (setCurrent code s).waiting = s.waiting := rfl
@[simp] theorem setCurrent_errIllegal (code : Code) : (setCurrent code s).errIllegal = s.errIllegal := rfl
@[simp] theorem setCurrent_errBuildBusy (code : Code) : (setCurrent code s).errBuildBusy = s.errBuildBusy := rfl
@[simp] theorem setCurrent_halted (code : Code) : (setCurrent code s).halted = s.halted := rfl
@[simp] theorem setCurrent_txEmpty (code : Code) : (setCurrent code s).txEmpty = s.txEmpty := rfl
@[simp] theorem setCurrent_txHold (code : Code) : (setCurrent code s).txHold = s.txHold := rfl
@[simp] theorem setCurrent_txLine (code : Code) : (setCurrent code s).txLine = s.txLine := rfl
@[simp] theorem setCurrent_outputs (code : Code) : (setCurrent code s).outputs = s.outputs := rfl
@[simp] theorem setCurrent_program (code : Code) : (setCurrent code s).program = s.program := rfl
@[simp] theorem setCurrent_progPos (code : Code) : (setCurrent code s).progPos = s.progPos := rfl
@[simp] theorem setCurrent_laterRuns (code : Code) : (setCurrent code s).laterRuns = s.laterRuns := rfl
@[simp] theorem setCurrent_schedule (code : Code) : (setCurrent code s).schedule = s.schedule := rfl

/-! ### setVoltage -/

@[simp] theorem setVoltage_cfg (code : Code) : (setVoltage code s).cfg = s.cfg := rfl
@[simp] theorem setVoltage_rawI (code : Code) : (setVoltage code s).rawI = s.rawI := rfl
@[simp] theorem setVoltage_rawV (code : Code) : (setVoltage code s).rawV = s.rawV := rfl
@[simp] theorem setVoltage_sampleI (code : Code) : (setVoltage code s).sampleI = s.sampleI := rfl
@[simp] theorem setVoltage_sampleV (code : Code) : (setVoltage code s).sampleV = s.sampleV := rfl
@[simp] theorem setVoltage_curUa (code : Code) : (setVoltage code s).curUa = s.curUa := rfl
@[simp] theorem setVoltage_voltMv (code : Code) : (setVoltage code s).voltMv = BitVec.ofNat 32 (rawToVoltage s.cfg code) := rfl
@[simp] theorem setVoltage_crcOut (code : Code) : (setVoltage code s).crcOut = s.crcOut := rfl
@[simp] theorem setVoltage_pkt (code : Code) : (setVoltage code s).pkt = s.pkt := rfl
@[simp] theorem setVoltage_txState (code : Code) : (setVoltage code s).txState = s.txState := rfl
@[simp] theorem setVoltage_txCursor (code : Code) : (setVoltage code s).txCursor = s.txCursor := rfl
@[simp] theorem setVoltage_txie (code : Code) : (setVoltage code s).txie = s.txie := rfl
@[simp] theorem setVoltage_ready (code : Code) : (setVoltage code s).ready = s.ready := rfl
@[simp] theorem setVoltage_convBusy (code : Code) : (setVoltage code s).convBusy = s.convBusy := rfl
@[simp] theorem setVoltage_consumed (code : Code) : (setVoltage code s).consumed = s.consumed := rfl
@[simp] theorem setVoltage_waiting (code : Code) : (setVoltage code s).waiting = s.waiting := rfl
@[simp] theorem setVoltage_errIllegal (code : Code) : (setVoltage code s).errIllegal = s.errIllegal := rfl
@[simp] theorem setVoltage_errBuildBusy (code : Code) : (setVoltage code s).errBuildBusy = s.errBuildBusy := rfl
@[simp] theorem setVoltage_halted (code : Code) : (setVoltage code s).halted = s.halted := rfl
@[simp] theorem setVoltage_txEmpty (code : Code) : (setVoltage code s).txEmpty = s.txEmpty := rfl
@[simp] theorem setVoltage_txHold (code : Code) : (setVoltage code s).txHold = s.txHold := rfl
@[simp] theorem setVoltage_txLine (code : Code) : (setVoltage code s).txLine = s.txLine := rfl
@[simp] theorem setVoltage_outputs (code : Code) : (setVoltage code s).outputs = s.outputs := rfl
@[simp] theorem setVoltage_program (code : Code) : (setVoltage code s).program = s.program := rfl
@[simp] theorem setVoltage_progPos (code : Code) : (setVoltage code s).progPos = s.progPos := rfl
@[simp] theorem setVoltage_laterRuns (code : Code) : (setVoltage code s).laterRuns = s.laterRuns := rfl
@[simp] theorem setVoltage_schedule (code : Code) : (setVoltage code s).schedule = s.schedule := rfl

/-! ### storeFrame -/

@[simp] theorem storeFrame_cfg : (storeFrame s).cfg = s.cfg := rfl
@[simp] theorem storeFrame_rawI : (storeFrame s).rawI = s.rawI := rfl
@[simp] theorem storeFrame_rawV : (storeFrame s).rawV = s.rawV := rfl
@[simp] theorem storeFrame_sampleI : (storeFrame s).sampleI = s.sampleI := rfl
@[simp] theorem storeFrame_sampleV : (storeFrame s).sampleV = s.sampleV := rfl
@[simp] theorem storeFrame_curUa : (storeFrame s).curUa = s.curUa := rfl
@[simp] theorem storeFrame_voltMv : (storeFrame s).voltMv = s.voltMv := rfl
@[simp] theorem storeFrame_crcOut : (storeFrame s).crcOut = s.crcOut := rfl
@[simp] theorem storeFrame_pkt : (storeFrame s).pkt = memWriteList s.pkt 0 (frameBytes s.cfg (currentField s) (voltageField s)) := rfl
@[simp] theorem storeFrame_txState : (storeFrame s).txState = s.txState := rfl
@[simp] theorem storeFrame_txCursor : (storeFrame s).txCursor = s.txCursor := rfl
@[simp] theorem storeFrame_txie : (storeFrame s).txie = s.txie := rfl
@[simp] theorem storeFrame_ready : (storeFrame s).ready = s.ready := rfl
@[simp] theorem storeFrame_convBusy : (storeFrame s).convBusy = s.convBusy := rfl
@[simp] theorem storeFrame_consumed : (storeFrame s).consumed = s.consumed := rfl
@[simp] theorem storeFrame_waiting : (storeFrame s).waiting = s.waiting := rfl
@[simp] theorem storeFrame_errIllegal : (storeFrame s).errIllegal = s.errIllegal := rfl
@[simp] theorem storeFrame_errBuildBusy : (storeFrame s).errBuildBusy = s.errBuildBusy := rfl
@[simp] theorem storeFrame_halted : (storeFrame s).halted = s.halted := rfl
@[simp] theorem storeFrame_txEmpty : (storeFrame s).txEmpty = s.txEmpty := rfl
@[simp] theorem storeFrame_txHold : (storeFrame s).txHold = s.txHold := rfl
@[simp] theorem storeFrame_txLine : (storeFrame s).txLine = s.txLine := rfl
@[simp] theorem storeFrame_outputs : (storeFrame s).outputs = s.outputs := rfl
@[simp] theorem storeFrame_program : (storeFrame s).program = s.program := rfl
@[simp] theorem storeFrame_progPos : (storeFrame s).progPos = s.progPos := rfl
@[simp] theorem storeFrame_laterRuns : (storeFrame s).laterRuns = s.laterRuns := rfl
@[simp] theorem storeFrame_schedule : (storeFrame s).schedule = s.schedule := rfl

/-! ### markBuildBusy -/

@[simp] theorem markBuildBusy_cfg : (markBuildBusy s).cfg = s.cfg := by
  unfold markBuildBusy; split <;> rfl
@[simp] theorem markBuildBusy_rawI : (markBuildBusy s).rawI = s.rawI := by
  unfold markBuildBusy; split <;> rfl
@[simp] theorem markBuildBusy_rawV : (markBuildBusy s).rawV = s.rawV := by
  unfold markBuildBusy; split <;> rfl
@[simp] theorem markBuildBusy_sampleI : (markBuildBusy s).sampleI = s.sampleI := by
  unfold markBuildBusy; split <;> rfl
@[simp] theorem markBuildBusy_sampleV : (markBuildBusy s).sampleV = s.sampleV := by
  unfold markBuildBusy; split <;> rfl
@[simp] theorem markBuildBusy_curUa : (markBuildBusy s).curUa = s.curUa := by
  unfold markBuildBusy; split <;> rfl
@[simp] theorem markBuildBusy_voltMv : (markBuildBusy s).voltMv = s.voltMv := by
  unfold markBuildBusy; split <;> rfl
@[simp] theorem markBuildBusy_crcOut : (markBuildBusy s).crcOut = s.crcOut := by
  unfold markBuildBusy; split <;> rfl
@[simp] theorem markBuildBusy_pkt : (markBuildBusy s).pkt = s.pkt := by
  unfold markBuildBusy; split <;> rfl
@[simp] theorem markBuildBusy_txState : (markBuildBusy s).txState = s.txState := by
  unfold markBuildBusy; split <;> rfl
@[simp] theorem markBuildBusy_txCursor : (markBuildBusy s).txCursor = s.txCursor := by
  unfold markBuildBusy; split <;> rfl
@[simp] theorem markBuildBusy_txie : (markBuildBusy s).txie = s.txie := by
  unfold markBuildBusy; split <;> rfl
@[simp] theorem markBuildBusy_ready : (markBuildBusy s).ready = s.ready := by
  unfold markBuildBusy; split <;> rfl
@[simp] theorem markBuildBusy_convBusy : (markBuildBusy s).convBusy = s.convBusy := by
  unfold markBuildBusy; split <;> rfl
@[simp] theorem markBuildBusy_consumed : (markBuildBusy s).consumed = s.consumed := by
  unfold markBuildBusy; split <;> rfl
@[simp] theorem markBuildBusy_waiting : (markBuildBusy s).waiting = s.waiting := by
  unfold markBuildBusy; split <;> rfl
@[simp] theorem markBuildBusy_errIllegal : (markBuildBusy s).errIllegal = s.errIllegal := by
  unfold markBuildBusy; split <;> simp
@[simp] theorem markBuildBusy_halted : (markBuildBusy s).halted = s.halted := by
  unfold markBuildBusy; split <;> simp
@[simp] theorem markBuildBusy_txEmpty : (markBuildBusy s).txEmpty = s.txEmpty := by
  unfold markBuildBusy; split <;> rfl
@[simp] theorem markBuildBusy_txHold : (markBuildBusy s).txHold = s.txHold := by
  unfold markBuildBusy; split <;> rfl
@[simp] theorem markBuildBusy_txLine : (markBuildBusy s).txLine = s.txLine := by
  unfold markBuildBusy; split <;> rfl
@[simp] theorem markBuildBusy_outputs : (markBuildBusy s).outputs = s.outputs := by
  unfold markBuildBusy; split <;> rfl
@[simp] theorem markBuildBusy_program : (markBuildBusy s).program = s.program := by
  unfold markBuildBusy; split <;> rfl
@[simp] theorem markBuildBusy_progPos : (markBuildBusy s).progPos = s.progPos := by
  unfold markBuildBusy; split <;> rfl
@[simp] theorem markBuildBusy_laterRuns : (markBuildBusy s).laterRuns = s.laterRuns := by
  unfold markBuildBusy; split <;> rfl
@[simp] theorem markBuildBusy_schedule : (markBuildBusy s).schedule = s.schedule := by
  unfold markBuildBusy; split <;> rfl

/-! ### advanceCursor -/

@[simp] theorem advanceCursor_cfg : (advanceCursor s).cfg = s.cfg := by
  unfold advanceCursor; split <;> rfl
@[simp] theorem advanceCursor_rawI : (advanceCursor s).rawI = s.rawI := by
  unfold advanceCursor; split <;> rfl
@[simp] theorem advanceCursor_rawV : (advanceCursor s).rawV = s.rawV := by
  unfold advanceCursor; split <;> rfl
@[simp] theorem advanceCursor_sampleI : (advanceCursor s).sampleI = s.sampleI := by
  unfold advanceCursor; split <;> rfl
@[simp] theorem advanceCursor_sampleV : (advanceCursor s).sampleV = s.sampleV := by
  unfold advanceCursor; split <;> rfl
@[simp] theorem advanceCursor_curUa : (advanceCursor s).curUa = s.curUa := by
  unfold advanceCursor; split <;> rfl
@[simp] theorem advanceCursor_voltMv : (advanceCursor s).voltMv = s.voltMv := by
  unfold advanceCursor; split <;> rfl
@[simp] theorem advanceCursor_crcOut : (advanceCursor s).crcOut = s.crcOut := by
  unfold advanceCursor; split <;> rfl
@[simp] theorem advanceCursor_pkt : (advanceCursor s).pkt = s.pkt := by
  unfold advanceCursor; split <;> rfl
@[simp] theorem advanceCursor_ready : (advanceCursor s).ready = s.ready := by
  unfold advanceCursor; split <;> rfl
@[simp] theorem advanceCursor_convBusy : (advanceCursor s).convBusy = s.convBusy := by
  unfold advanceCursor; split <;> rfl
@[simp] theorem advanceCursor_consumed : (advanceCursor s).consumed = s.consumed := by
  unfold advanceCursor; split <;> rfl
@[simp] theorem advanceCursor_waiting : (advanceCursor s).waiting = s.waiting := by
  unfold advanceCursor; split <;> rfl
@[simp] theorem advanceCursor_errIllegal : (advanceCursor s).errIllegal = s.errIllegal := by
  unfold advanceCursor; split <;> rfl
@[simp] theorem advanceCursor_errBuildBusy : (advanceCursor s).errBuildBusy = s.errBuildBusy := by
  unfold advanceCursor; split <;> rfl
@[simp] theorem advanceCursor_halted : (advanceCursor s).halted = s.halted := by
  unfold advanceCursor; split <;> rfl
@[simp] theorem advanceCursor_txEmpty : (advanceCursor s).txEmpty = s.txEmpty := by
  unfold advanceCursor; split <;> rfl
@[simp] theorem advanceCursor_txHold : (advanceCursor s).txHold = s.txHold := by
  unfold advanceCursor; split <;> rfl
@[simp] theorem advanceCursor_txLine : (advanceCursor s).txLine = s.txLine := by
  unfold advanceCursor; split <;> rfl
@[simp] theorem advanceCursor_outputs : (advanceCursor s).outputs = s.outputs := by
  unfold advanceCursor; split <;> rfl
@[simp] theorem advanceCursor_program : (advanceCursor s).program = s.program := by
  unfold advanceCursor; split <;> rfl
@[simp] theorem advanceCursor_progPos : (advanceCursor s).progPos = s.progPos := by
  unfold advanceCursor; split <;> rfl
@[simp] theorem advanceCursor_laterRuns : (advanceCursor s).laterRuns = s.laterRuns := by
  unfold advanceCursor; split <;> rfl
@[simp] theorem advanceCursor_schedule : (advanceCursor s).schedule = s.schedule := by
  unfold advanceCursor; split <;> rfl

@[simp] theorem markBuildBusy_errBuildBusy :
    (markBuildBusy s).errBuildBusy = (s.errBuildBusy || s.txState == .sending) := by
  unfold markBuildBusy; split <;> simp_all [raise]

/-- The two outcomes of the cursor's advance (43_transmitter.md R163). -/
theorem advanceCursor_eq :
    advanceCursor s =
      if (s.txCursor + 1#4).toNat = s.cfg.frameLen then enterIdle s
      else { s with txCursor := s.txCursor + 1#4 } := rfl

end Sys2Proof.Machine
end

