-- ==== Sys2Proof/Laws/Exec.lean ====
section
/-! SUPPORT. Everything an instruction can do, once: the effects of exec, one case per rule, guards
included; invariants and frames are case analyses over it. -/

namespace Sys2Proof.Machine

/-- Where exec answers a next state, it is one of these. `none` is a transition with no step or no
effect. -/
inductive ExecEffect : Instr → State → State → Prop where
  | none (i : Instr) (s : State) : ExecEffect i s s
  | consumeReady (s : State) (hw : s.waiting = false) (hh : s.halted = false) (hr : s.ready = true) :
      ExecEffect .consume s
        { s with consumed := true, sampleI := s.rawI, sampleV := s.rawV, ready := false }
  | consumeEmpty (s : State) (hw : s.waiting = false) (hh : s.halted = false) (hr : s.ready = false) :
      ExecEffect .consume s { s with consumed := false }
  | convI (s : State) (hw : s.waiting = false) (hh : s.halted = false) :
      ExecEffect .convI s (setCurrent s.sampleI s)
  | convV (s : State) (hw : s.waiting = false) (hh : s.halted = false) :
      ExecEffect .convV s (setVoltage s.sampleV s)
  | convIImm (s : State) (code : Code) (hw : s.waiting = false) (hh : s.halted = false) :
      ExecEffect (.convIImm code) s (setCurrent code s)
  | convVImm (s : State) (code : Code) (hw : s.waiting = false) (hh : s.halted = false) :
      ExecEffect (.convVImm code) s (setVoltage code s)
  | build (s : State) (hw : s.waiting = false) (hh : s.halted = false) :
      ExecEffect .build s (storeFrame (markBuildBusy s))
  | startSend (s : State) (hw : s.waiting = false) (hh : s.halted = false) (hi : s.txState = .idle)
      (he : s.txEmpty = true) :
      ExecEffect .startSend s (enterSending (emit (memRead s.pkt 0) s))
  | crcSpan (s : State) (n : Code) (hw : s.waiting = false) (hh : s.halted = false)
      (hn : n.toNat ≤ s.cfg.frameLen) :
      ExecEffect (.crcSpan n) s { s with crcOut := crc8 s.cfg.crcXorOut (pktSpan s n.toNat) }
  | crcTooLong (s : State) (n : Code) (hw : s.waiting = false) (hh : s.halted = false)
      (hn : s.cfg.frameLen < n.toNat) :
      ExecEffect (.crcSpan n) s (raise .illegalCommand s)
  | wfi (s : State) (hw : s.waiting = false) (hh : s.halted = false) :
      ExecEffect .wfi s { s with waiting := true }
  | trigStart (s : State) (hh : s.halted = false) (hb : s.convBusy = false) :
      ExecEffect .evtTrig s (wake (convStart { s with convBusy := true }))
  | trigBusy (s : State) (hh : s.halted = false) (hb : s.convBusy = true) :
      ExecEffect .evtTrig s (wake s)
  | convDone (s : State) (codeI codeV : Code) (hh : s.halted = false) (hb : s.convBusy = true) :
      ExecEffect (.evtConvDone codeI codeV) s
        (wake { s with rawI := codeI, rawV := codeV, ready := true, convBusy := false })
  | byteReady (s : State) (hh : s.halted = false) (hi : s.txie = true) (he : s.txEmpty = true)
      (hc : s.txCursor.toNat < 8) :
      ExecEffect .evtByteReady s
        (wake (advanceCursor (emit (memRead s.pkt s.txCursor.toNat) s)))
  | txTake (s : State) (he : s.txEmpty = false) :
      ExecEffect .evtTxTake s { s with txLine := s.txLine ++ [s.txHold], txEmpty := true }
  | fault (s : State) : ExecEffect .evtFault s (raise .fault s)

/-- A guarded, halt-checked transition that answers a next state had no step, no effect, or its effect. -/
theorem whenEnabled_unlessHalted_next {i : Instr} {s t : State} {f : State → Outcome}
    (h : whenEnabled i s (fun s => unlessHalted s f) = .next t) :
    t = s ∨ (enabled i s = true ∧ s.halted = false ∧ f s = .next t) := by
  unfold whenEnabled at h
  split at h
  · next he =>
    dsimp only [unlessHalted] at h
    split at h
    · exact .inl (Host.Outcome.next.inj h).symm
    · next hh => exact .inr ⟨he, by simpa using hh, h⟩
  · exact .inl (Host.Outcome.next.inj h).symm

/-- The inversion of exec. -/
theorem exec_effect {i : Instr} {s t : State} (h : exec i s = .next t) : ExecEffect i s t := by
  cases i with
  | nop =>
    have : t = s := by
      simp only [exec, execNop, whenEnabled, ite_self] at h
      exact (Host.Outcome.next.inj h).symm
    subst this; exact .none _ _
  | consume =>
    obtain rfl | ⟨he, hh, h⟩ := whenEnabled_unlessHalted_next h
    · exact .none _ _
    · have hw : s.waiting = false := by simpa [enabled] using he
      split at h <;> cases h
      · next hr => exact .consumeReady _ hw hh hr
      · next hr => exact .consumeEmpty _ hw hh (by simpa using hr)
  | convI =>
    obtain rfl | ⟨he, hh, h⟩ := whenEnabled_unlessHalted_next h
    · exact .none _ _
    · cases h; exact .convI _ (by simpa [enabled] using he) hh
  | convV =>
    obtain rfl | ⟨he, hh, h⟩ := whenEnabled_unlessHalted_next h
    · exact .none _ _
    · cases h; exact .convV _ (by simpa [enabled] using he) hh
  | convIImm code =>
    obtain rfl | ⟨he, hh, h⟩ := whenEnabled_unlessHalted_next h
    · exact .none _ _
    · cases h; exact .convIImm _ _ (by simpa [enabled] using he) hh
  | convVImm code =>
    obtain rfl | ⟨he, hh, h⟩ := whenEnabled_unlessHalted_next h
    · exact .none _ _
    · cases h; exact .convVImm _ _ (by simpa [enabled] using he) hh
  | build =>
    obtain rfl | ⟨he, hh, h⟩ := whenEnabled_unlessHalted_next h
    · exact .none _ _
    · cases h; exact .build _ (by simpa [enabled] using he) hh
  | startSend =>
    obtain rfl | ⟨he, hh, h⟩ := whenEnabled_unlessHalted_next h
    · exact .none _ _
    · split at h <;> cases h
      · exact .none _ _
      · next hi =>
        have hi : s.txState = .idle := by cases hs : s.txState <;> simp_all
        simp [enabled, hh, hi] at he
        exact .startSend _ he.1 hh hi he.2
  | crcSpan n =>
    obtain rfl | ⟨he, hh, h⟩ := whenEnabled_unlessHalted_next h
    · exact .none _ _
    · have hw : s.waiting = false := by simpa [enabled] using he
      split at h <;> cases h
      · next hn => exact .crcSpan _ _ hw hh hn
      · next hn => exact .crcTooLong _ _ hw hh (by omega)
  | wfi =>
    obtain rfl | ⟨he, hh, h⟩ := whenEnabled_unlessHalted_next h
    · exact .none _ _
    · cases h; exact .wfi _ (by simpa [enabled] using he) hh
  | evtTrig =>
    simp only [exec, execEvtTrig] at h
    obtain rfl | ⟨_, hh, h⟩ := whenEnabled_unlessHalted_next h
    · exact .none _ _
    · split at h <;> cases h
      · next hb => exact .trigBusy _ hh hb
      · next hb => exact .trigStart _ hh (by simpa using hb)
  | evtConvDone codeI codeV =>
    simp only [exec, execEvtConvDone] at h
    obtain rfl | ⟨_, hh, h⟩ := whenEnabled_unlessHalted_next h
    · exact .none _ _
    · split at h <;> cases h
      · next hb => exact .convDone _ _ _ hh hb
      · exact .none _ _
  | evtByteReady =>
    obtain rfl | ⟨he, hh, h⟩ := whenEnabled_unlessHalted_next h
    · exact .none _ _
    · simp only [enabled, Bool.and_eq_true] at he
      unfold pktByte? at h
      by_cases hc : s.txCursor.toNat < pktSize
      · rw [if_pos hc] at h
        cases h
        exact .byteReady _ hh he.1 he.2 hc
      · rw [if_neg hc] at h
        cases h
  | evtTxTake =>
    simp only [exec, execEvtTxTake, whenEnabled] at h
    split at h <;> cases h
    · next he => exact .txTake _ (by simpa [enabled] using he)
    · exact .none _ _
  | evtFault =>
    simp only [exec, execEvtFault, whenEnabled, enabled, if_true] at h
    cases h
    exact .fault _

end Sys2Proof.Machine
end

