-- ==== Sys2Proof/Laws/Memory.lean ====
section
/-! SUPPORT. Laws of the packet memory: what a read gives after a write, and that every write keeps the
canonical form. -/

namespace Sys2Proof.Machine

theorem memWfFrom_mono {lo lo' : Nat} (h : lo ≤ lo') {m : Memory}
    (hm : Memory.wfFrom lo' m = true) : Memory.wfFrom lo m = true := by
  cases m with
  | nil => rfl
  | cons c rest =>
    simp only [Memory.wfFrom, Bool.and_eq_true, decide_eq_true_eq] at hm ⊢
    exact ⟨⟨by omega, hm.1.2⟩, hm.2⟩

/-- Below its lowest address a canonical memory reads 0x00. -/
theorem memRead_below {lo a : Nat} (ha : a < lo) {m : Memory} (hm : Memory.wfFrom lo m = true) :
    memRead m a = 0x00#8 := by
  induction m generalizing lo with
  | nil => rfl
  | cons c rest ih =>
    simp only [Memory.wfFrom, Bool.and_eq_true, decide_eq_true_eq] at hm
    rw [memRead, if_neg (by omega)]
    exact ih (by omega) hm.2

theorem memRead_memCons {a : Nat} {b : Byte} {m : Memory}
    (hm : Memory.wfFrom (a + 1) m = true) (x : Nat) :
    memRead (memCons a b m) x = if x = a then b else memRead m x := by
  unfold memCons
  split
  · next hb =>
    split
    · next hx => rw [hx, memRead_below (Nat.lt_succ_self a) hm, hb]
    · rfl
  · rfl

theorem memCons_wfFrom {lo a : Nat} {b : Byte} {m : Memory} (ha : lo ≤ a)
    (hm : Memory.wfFrom (a + 1) m = true) : Memory.wfFrom lo (memCons a b m) = true := by
  unfold memCons
  split
  · exact memWfFrom_mono (by omega) hm
  · next hb => simp [Memory.wfFrom, ha, hb, hm]

/-- A read after a write: the byte written at its address, every other byte as before. -/
theorem memRead_memWrite {lo : Nat} {m : Memory} (hm : Memory.wfFrom lo m = true) (a : Nat) (b : Byte)
    (x : Nat) : memRead (memWrite m a b) x = if x = a then b else memRead m x := by
  induction m generalizing lo with
  | nil => exact memRead_memCons rfl x
  | cons c rest ih =>
    obtain ⟨k, v⟩ := c
    have hc := hm
    simp only [Memory.wfFrom, Bool.and_eq_true, decide_eq_true_eq] at hm
    unfold memWrite
    split
    · next hlt =>
      exact memRead_memCons
        (by simp only [Memory.wfFrom, Bool.and_eq_true, decide_eq_true_eq]
            exact ⟨⟨by omega, hm.1.2⟩, hm.2⟩) x
    · split
      · next hk =>
        subst hk
        rw [memRead_memCons hm.2, memRead]
        split <;> rfl
      · next hk =>
        rw [memRead, memRead, ih hm.2]
        by_cases hx : x = a
        · subst hx; simp [hk]
        · simp [hx]

/-- A write keeps the canonical form. -/
theorem memWrite_wfFrom {lo : Nat} {m : Memory} (hm : Memory.wfFrom lo m = true) {a : Nat} (ha : lo ≤ a)
    (b : Byte) : Memory.wfFrom lo (memWrite m a b) = true := by
  induction m generalizing lo with
  | nil => exact memCons_wfFrom ha rfl
  | cons c rest ih =>
    obtain ⟨k, v⟩ := c
    simp only [Memory.wfFrom, Bool.and_eq_true, decide_eq_true_eq] at hm
    unfold memWrite
    split
    · exact memCons_wfFrom ha
        (by simp only [Memory.wfFrom, Bool.and_eq_true, decide_eq_true_eq]
            exact ⟨⟨by omega, hm.1.2⟩, hm.2⟩)
    · split
      · next hk => subst hk; exact memCons_wfFrom ha hm.2
      · next hk =>
        simp only [Memory.wfFrom, Bool.and_eq_true, decide_eq_true_eq]
        exact ⟨hm.1, ih hm.2 (by omega)⟩

theorem memWrite_wf {m : Memory} (hm : m.wf = true) (a : Nat) (b : Byte) :
    Memory.wf (memWrite m a b) = true := memWrite_wfFrom hm (Nat.zero_le a) b

theorem memWriteList_wf {m : Memory} (hm : m.wf = true) (a : Nat) (bs : List Byte) :
    Memory.wf (memWriteList m a bs) = true := by
  induction bs generalizing m a with
  | nil => exact hm
  | cons b bs ih => exact ih (memWrite_wf hm a b) (a + 1)

/-- A read after a block write: the bytes written in their range, every other byte as before. -/
theorem memRead_memWriteList {m : Memory} (hm : m.wf = true) (a : Nat) (bs : List Byte) (x : Nat) :
    memRead (memWriteList m a bs) x =
      if a ≤ x ∧ x < a + bs.length then bs.getD (x - a) 0x00#8 else memRead m x := by
  induction bs generalizing m a with
  | nil => simp [memWriteList]
  | cons b bs ih =>
    rw [memWriteList, ih (memWrite_wf hm a b), memRead_memWrite (lo := 0) hm]
    by_cases hx : x = a
    · subst hx; simp
    · by_cases hr : a + 1 ≤ x ∧ x < a + 1 + bs.length
      · have hsub : x - a = (x - (a + 1)) + 1 := by omega
        rw [if_pos hr, if_pos (by simp; omega), hsub]
        simp
      · rw [if_neg hr, if_neg hx, if_neg (by simp; omega)]

@[simp] theorem memTake_length (m : Memory) (n : Nat) : (memTake m n).length = n := by
  simp [memTake]

@[simp] theorem memTake_getElem (m : Memory) (n k : Nat) (h : k < (memTake m n).length) :
    (memTake m n)[k] = memRead m k := by
  simp [memTake]

/-- The bytes of a block that was written at address 0. -/
theorem memTake_memWriteList {m : Memory} (hm : m.wf = true) (bs : List Byte) :
    memTake (memWriteList m 0 bs) bs.length = bs := by
  apply List.ext_getElem (by simp)
  intro k h1 h2
  rw [memTake_getElem, memRead_memWriteList hm]
  simp [h2]

theorem memTake_succ_drop (m : Memory) {n k : Nat} (h : k < n) :
    (memTake m n).drop k = memRead m k :: (memTake m n).drop (k + 1) := by
  rw [List.drop_eq_getElem_cons (by simpa using h)]
  simp

/-- Canonical memories that read alike are the same data. -/
theorem memory_ext {lo : Nat} {m m' : Memory} (hm : Memory.wfFrom lo m = true)
    (hm' : Memory.wfFrom lo m' = true) (h : ∀ a, memRead m a = memRead m' a) : m = m' := by
  induction m generalizing lo m' with
  | nil =>
    cases m' with
    | nil => rfl
    | cons c rest =>
      simp only [Memory.wfFrom, Bool.and_eq_true, decide_eq_true_eq] at hm'
      have := h c.1
      simp only [memRead, if_true] at this
      exact absurd this.symm hm'.1.2
  | cons c rest ih =>
    obtain ⟨k, v⟩ := c
    cases m' with
    | nil =>
      simp only [Memory.wfFrom, Bool.and_eq_true, decide_eq_true_eq] at hm
      have := h k
      simp only [memRead, if_true] at this
      exact absurd this hm.1.2
    | cons c' rest' =>
      obtain ⟨k', v'⟩ := c'
      simp only [Memory.wfFrom, Bool.and_eq_true, decide_eq_true_eq] at hm hm'
      have hk : k = k' := by
        rcases Nat.lt_trichotomy k k' with hlt | heq | hgt
        · have := h k
          rw [memRead, if_pos rfl, memRead, if_neg (by omega),
            memRead_below (by omega) hm'.2] at this
          exact absurd this hm.1.2
        · exact heq
        · have := h k'
          rw [memRead, if_neg (by omega), memRead_below (by omega) hm.2, memRead, if_pos rfl] at this
          exact absurd this.symm hm'.1.2
      subst hk
      have hv : v = v' := by simpa [memRead] using h k
      subst hv
      rw [ih hm.2 hm'.2]
      intro a
      by_cases ha : a = k
      · subst ha
        rw [memRead_below (Nat.lt_succ_self a) hm.2, memRead_below (Nat.lt_succ_self a) hm'.2]
      · simpa [memRead, ha] using h a

end Sys2Proof.Machine
end

