-- ==== Sys2Proof/Laws/Frame.lean ====
section
/-! SUPPORT. Laws of the frame: its length, and what PKT reads as once it is stored. -/

namespace Sys2Proof

theorem Config.six_le_frameLen (c : Config) : 6 ≤ c.frameLen := Nat.le_add_right _ _

theorem Config.frameLen_le_eight (c : Config) : c.frameLen ≤ 8 := by
  unfold Config.frameLen
  cases c.padLen <;> decide

theorem Config.frameLen_of_two {c : Config} (h : c.padLen = .two) : c.frameLen = 8 := by
  simp [Config.frameLen, h, PadLen.bytes]

theorem Config.frameLen_of_zero {c : Config} (h : c.padLen = .zero) : c.frameLen = 6 := by
  simp [Config.frameLen, h, PadLen.bytes]

end Sys2Proof

namespace Sys2Proof.Machine

@[simp] theorem frameBytes_length (c : Config) (cf vf : Code) :
    (frameBytes c cf vf).length = c.frameLen := by
  cases h : c.padLen <;>
    simp [frameBytes, frameHead, framePad, Config.frameLen, PadLen.bytes, h]

/-- A stored frame, byte by byte. -/
theorem memRead_storedFrame {m : Memory} (hm : m.wf = true) (c : Config) (cf vf : Code) {a : Nat}
    (ha : a < c.frameLen) :
    memRead (memWriteList m 0 (frameBytes c cf vf)) a = (frameBytes c cf vf).getD a 0x00#8 := by
  rw [memRead_memWriteList hm, if_pos ⟨Nat.zero_le a, by simpa using ha⟩, Nat.sub_zero]

/-- Behind the frame every byte is as before. -/
theorem memRead_behindFrame {m : Memory} (hm : m.wf = true) (c : Config) (cf vf : Code) {a : Nat}
    (ha : c.frameLen ≤ a) :
    memRead (memWriteList m 0 (frameBytes c cf vf)) a = memRead m a := by
  rw [memRead_memWriteList hm, if_neg (by simp only [frameBytes_length]; omega)]

/-- A stored frame as a whole. -/
theorem memTake_storedFrame {m : Memory} (hm : m.wf = true) (c : Config) (cf vf : Code) :
    memTake (memWriteList m 0 (frameBytes c cf vf)) c.frameLen = frameBytes c cf vf := by
  have := memTake_memWriteList hm (frameBytes c cf vf)
  rwa [frameBytes_length] at this

theorem memTake_eq_take (m : Memory) {n k : Nat} (h : n ≤ k) : memTake m n = (memTake m k).take n := by
  apply List.ext_getElem
  · simp; omega
  · intro j h1 h2; simp

end Sys2Proof.Machine
end

