-- ==== Sys2Proof/Laws/Output.lean ====
section
/-! SUPPORT. Laws of the counted output strobes, and of the 4-bit cursor. -/

namespace Sys2Proof.Machine

@[simp] theorem txStrobes_append (as bs : List Output) :
    txStrobes (as ++ bs) = txStrobes as ++ txStrobes bs := by
  induction as with
  | nil => rfl
  | cons o os ih => cases o <;> simp [txStrobes, ih]

@[simp] theorem convStarts_append (as bs : List Output) :
    convStarts (as ++ bs) = convStarts as + convStarts bs := by
  induction as with
  | nil => simp [convStarts]
  | cons o os ih => cases o <;> simp [convStarts, ih]; omega

@[simp] theorem wakes_append (as bs : List Output) : wakes (as ++ bs) = wakes as + wakes bs := by
  induction as with
  | nil => simp [wakes]
  | cons o os ih => cases o <;> simp [wakes, ih]; omega

/-- A wake emits no byte. -/
theorem txStrobes_wake (s : State) : txStrobes (wake s).outputs = txStrobes s.outputs := by
  simp only [wake_outputs]
  split <;> simp [txStrobes]

/-- A cursor inside the packet buffer does not wrap. -/
theorem cursor_succ {c : BitVec 4} (h : c.toNat < 8) : (c + 1#4).toNat = c.toNat + 1 := by
  rw [BitVec.toNat_add]
  simp
  omega

end Sys2Proof.Machine
end

