-- ==== Sys2Proof/Laws/PerInstr.lean ====
section
/-! SUPPORT. Per instruction, as syntax: the encoding fits the row of the opcode table (30_encoding.md R73,
R78). -/

namespace Sys2Proof.Laws.TableRow

/-- The row of R73 (pattern and mask) that a command's word belongs to, or the EV code of R78 with the
payload an event's record must carry. -/
def Fits (e : Encoded) : Instr → Prop
  | .nop => e = .command 0x00000000#32
  | .consume => e = .command 0x00000001#32
  | .convI => e = .command 0x00000002#32
  | .convV => e = .command 0x00000003#32
  | .convIImm code =>
    ∃ w : Word, e = .command w ∧ w.extractLsb' 0 16 = 0x0004#16 ∧ w.extractLsb' 16 16 = code
  | .convVImm code =>
    ∃ w : Word, e = .command w ∧ w.extractLsb' 0 16 = 0x0005#16 ∧ w.extractLsb' 16 16 = code
  | .build => e = .command 0x00000006#32
  | .startSend => e = .command 0x00000007#32
  | .crcSpan n =>
    ∃ w : Word, e = .command w ∧ w.extractLsb' 0 16 = 0x0008#16 ∧ w.extractLsb' 16 16 = n
  | .wfi => e = .command 0x00000009#32
  | .evtTrig => e = .event ⟨0x1#4, 0#32⟩
  | .evtConvDone codeI codeV =>
    ∃ p : Word, e = .event ⟨0x2#4, p⟩ ∧ p.extractLsb' 0 16 = codeI ∧ p.extractLsb' 16 16 = codeV
  | .evtByteReady => e = .event ⟨0x3#4, 0#32⟩
  | .evtTxTake => e = .event ⟨0x4#4, 0#32⟩
  | .evtFault => e = .event ⟨0x5#4, 0#32⟩

/-- The encoder's word or record of an instruction is that of its row. -/
def Statement (i : Instr) : Prop := Fits (encode i) i

theorem nop : Statement .nop := rfl
theorem consume : Statement .consume := rfl
theorem convI : Statement .convI := rfl
theorem convV : Statement .convV := rfl
theorem convIImm (code : Code) : Statement (.convIImm code) :=
  ⟨_, rfl, extract_low_half _ _, extract_high_half _ _⟩
theorem convVImm (code : Code) : Statement (.convVImm code) :=
  ⟨_, rfl, extract_low_half _ _, extract_high_half _ _⟩
theorem build : Statement .build := rfl
theorem startSend : Statement .startSend := rfl
theorem crcSpan (n : Code) : Statement (.crcSpan n) :=
  ⟨_, rfl, extract_low_half _ _, extract_high_half _ _⟩
theorem wfi : Statement .wfi := rfl
theorem evtTrig : Statement .evtTrig := rfl
theorem evtConvDone (codeI codeV : Code) : Statement (.evtConvDone codeI codeV) :=
  ⟨_, rfl, extract_low_half _ _, extract_high_half _ _⟩
theorem evtByteReady : Statement .evtByteReady := rfl
theorem evtTxTake : Statement .evtTxTake := rfl
theorem evtFault : Statement .evtFault := rfl

end Sys2Proof.Laws.TableRow
end

