-- ==== Sys2Proof/Laws/Step.lean ====
section
/-! SUPPORT. Everything a step can do, once: one case per way a turn can end. -/

namespace Sys2Proof.Machine

/-- What a turn does to a state that has already dropped it. -/
inductive TurnEffect : Turn → State → State → Prop where
  /-- the consumer has no step: it waits, has nothing to issue, or its command is held -/
  | stay (s : State) : TurnEffect .consumer s s
  /-- an access with no effect: a write off CMD, or a command while halted -/
  | issued (s : State) : TurnEffect .consumer s (nextAccess s)
  | consumerRead (s : State) (idx : RegIdx) :
      TurnEffect .consumer s (putRegData (regRead s idx) (nextAccess s))
  | illegal (s : State) (hw : s.waiting = false) (hh : s.halted = false) :
      TurnEffect .consumer s (raise .illegalCommand (nextAccess s))
  | command (s t : State) (i : Instr) (hc : i.isCommand = true)
      (hf : i.wellFormed s.cfg.frameLen = true) (hw : s.waiting = false) (hh : s.halted = false)
      (h : ExecEffect i (nextAccess s) t) : TurnEffect .consumer s t
  | event (s t : State) (r : EventRecord) (i : Instr) (hd : decodeEvent r = .ok i)
      (h : ExecEffect i s t) : TurnEffect (.event r) s t
  | observe (s : State) (idx : RegIdx) :
      TurnEffect (.observe idx) s (putRegData (regRead s idx) s)
  | reset (s : State) : TurnEffect .reset s (applyReset s)

theorem consumerTurn_effect {s t : State} (h : consumerTurn s = .next t) :
    TurnEffect .consumer s t := by
  unfold consumerTurn at h
  split at h
  · cases h; exact .stay _
  · next hw =>
    have hw : s.waiting = false := by simpa using hw
    split at h
    · cases h; exact .stay _
    · next a _ =>
      cases a with
      | read idx => cases h; exact .consumerRead _ _
      | write idx w =>
        simp only [portAccess] at h
        split at h
        · unfold commandWrite at h
          split at h
          · cases h; exact .issued _
          · next hh =>
            have hh : s.halted = false := by simpa using hh
            split at h
            · next i hd =>
              split at h
              · exact .command _ _ i (decodeCommand_isCommand hd) (decodeCommand_wellFormed hd) hw hh
                  (exec_effect h)
              · cases h; exact .stay _
            · cases h; exact .illegal _ hw hh
        · cases h; exact .issued _

/-- The inversion of step. -/
theorem step_effect {s t : State} (h : step s = .next t) :
    (s.schedule = [] ∧ t = s) ∨
      ∃ turn, s.schedule.head? = some turn ∧ TurnEffect turn (dropTurn s) t := by
  unfold step takeNextTurn at h
  split at h
  · next hs => cases h; exact .inl ⟨hs, rfl⟩
  · next turn rest hs =>
    refine .inr ⟨turn, by rw [hs]; rfl, ?_⟩
    cases turn with
    | consumer => exact consumerTurn_effect h
    | event r =>
      simp only [takeTurn, eventTurn] at h
      split at h
      · next i hd => exact .event _ _ r i hd (exec_effect h)
      · cases h
    | observe idx => cases h; exact .observe _ _
    | reset => cases h; exact .reset _

end Sys2Proof.Machine
end

