-- ==== Sys2Proof/Laws/Run.lean ====
section
/-! SUPPORT. Runs of several steps: how they split, and that they are the host's runs. -/

namespace Sys2Proof.Machine

theorem runSteps_succ (k : Nat) {s t : State} (h : step s = .next t) :
    runSteps (k + 1) s = runSteps k t := by
  simp only [runSteps, h]

/-- A run that answers a next state began with a step that did. -/
theorem runSteps_succ_next {k : Nat} {s t : State} (h : runSteps (k + 1) s = .next t) :
    ∃ u, step s = .next u ∧ runSteps k u = .next t := by
  simp only [runSteps] at h
  split at h
  · next u hu => exact ⟨u, hu, h⟩
  · cases h
  · cases h

/-- A run that answers a next state ended with a step that did. -/
theorem runSteps_last {k : Nat} {s t : State} (h : runSteps (k + 1) s = .next t) :
    ∃ u, runSteps k s = .next u ∧ step u = .next t := by
  induction k generalizing s with
  | zero =>
    obtain ⟨u, hu, ht⟩ := runSteps_succ_next h
    cases ht
    exact ⟨s, rfl, hu⟩
  | succ k ih =>
    obtain ⟨u, hu, ht⟩ := runSteps_succ_next h
    obtain ⟨v, hv, hs⟩ := ih ht
    exact ⟨v, by rw [runSteps_succ k hu, hv], hs⟩

theorem runSteps_add {m : Nat} (k : Nat) {s u : State} (h : runSteps m s = .next u) :
    runSteps (m + k) s = runSteps k u := by
  induction m generalizing s with
  | zero => cases h; rw [Nat.zero_add]
  | succ m ih =>
    obtain ⟨v, hv, hu⟩ := runSteps_succ_next h
    rw [Nat.succ_add, runSteps_succ _ hv, ih hu]

/-- How the host's run begins, by the outcome of the first step. -/
theorem hostRun_next (M : Host.Core) (k : Nat) {s t : M.State} (h : M.step s = .next t) :
    M.run (k + 1) s = M.run k t := by
  simp only [Host.Core.run, h]

theorem hostRun_fault (M : Host.Core) (k : Nat) {s : M.State} {r : M.Fault} (h : M.step s = .fault r) :
    M.run (k + 1) s = .fault r := by
  simp only [Host.Core.run, h]

theorem hostRun_refused (M : Host.Core) (k : Nat) {s : M.State} {r : M.Refusal}
    (h : M.step s = .refused r) : M.run (k + 1) s = .refused r := by
  simp only [Host.Core.run, h]

/-- The host's run of the machine is runSteps. -/
theorem core_run_eq (k : Nat) (s : State) : Sys2Proof.core.run k s = runSteps k s := by
  induction k generalizing s with
  | zero => rfl
  | succ k ih =>
    simp only [runSteps]
    cases h : step s with
    | next t => exact (hostRun_next Sys2Proof.core k h).trans (ih t)
    | fault r => exact hostRun_fault Sys2Proof.core k h
    | refused r => exact hostRun_refused Sys2Proof.core k h

/-- A step takes one turn off the schedule. -/
theorem step_schedule {s t : State} (h : step s = .next t) : t.schedule = s.schedule.tail := by
  obtain ⟨h0, rfl⟩ | ⟨turn, _, h⟩ := step_effect h
  · rw [h0]; rfl
  · cases h with
    | command _ _ _ _ _ _ _ h => cases h <;> simp
    | event _ _ _ _ _ h => cases h <;> simp
    | _ => simp [applyReset]

end Sys2Proof.Machine
end

