-- ==== Sys2Proof/Laws/Trace.lean ====
section
/-! SUPPORT. Laws of a loaded trace: the inputs keep step with it, and every command line writes its own
word, behind a reset line too (30_encoding.md R79). -/

namespace Sys2Proof.Machine

/-- No instruction touches the consumer's inputs. -/
theorem ExecEffect.inputs {i : Instr} {s t : State} (h : ExecEffect i s t) :
    t.program = s.program ∧ t.laterRuns = s.laterRuns := by
  cases h <;> simp

/-- A step leaves the consumer's accesses as they are, but for reset, which goes on to the next run. -/
theorem step_inputs {s t : State} (h : step s = .next t) :
    (s.schedule.head? ≠ some .reset ∧ t.program = s.program ∧ t.laterRuns = s.laterRuns) ∨
      (s.schedule.head? = some .reset ∧ t.program = s.laterRuns.headD s.program ∧
        t.laterRuns = s.laterRuns.tail ∧ t.progPos = 0) := by
  obtain ⟨h0, rfl⟩ | ⟨turn, ht, h⟩ := step_effect h
  · exact .inl ⟨by rw [h0]; simp, rfl, rfl⟩
  · rw [ht]
    cases h with
    | command _ _ i _ _ _ _ h => exact .inl ⟨by simp, h.inputs⟩
    | event _ _ r i _ h => exact .inl ⟨by simp, h.inputs⟩
    | reset => exact .inr ⟨rfl, rfl, rfl, rfl⟩
    | _ => exact .inl ⟨by simp, rfl, rfl⟩

/-- The commands of a trace behind its last reset line. -/
def sinceReset : List TraceItem → List Access → List Access
  | [], acc => acc
  | .command w :: items, acc => sinceReset items (acc ++ [.write 0#6 w])
  | .event _ :: items, acc => sinceReset items acc
  | .reset :: items, _ => sinceReset items []

theorem traceRuns_ne_nil (items : List TraceItem) : traceRuns items ≠ [] := by
  cases items with
  | nil => simp [traceRuns]
  | cons item items =>
    cases item with
    | command w =>
      rw [traceRuns]
      cases traceRuns items <;> simp [consAccess]
    | event r => exact traceRuns_ne_nil items
    | reset => simp [traceRuns]

/-- The inputs of a state hold what is left of a trace, behind the accesses `done` of the present run. -/
def HoldsTrace (done : List Access) (items : List TraceItem) (s : State) : Prop :=
  s.schedule = items.map traceTurn ∧ s.program = done ++ (traceRuns items).headD [] ∧
    s.laterRuns = (traceRuns items).tail

theorem loadTrace_holds (c : Config) (items : List TraceItem) : HoldsTrace [] items (loadTrace c items) :=
  ⟨rfl, rfl, rfl⟩

/-- One step goes on by one line. -/
theorem HoldsTrace.step {done : List Access} {item : TraceItem} {items : List TraceItem} {s t : State}
    (hs : HoldsTrace done (item :: items) s) (h : step s = .next t) :
    HoldsTrace (sinceReset [item] done) items t := by
  obtain ⟨hq, hp, hl⟩ := hs
  have hq' : t.schedule = items.map traceTurn := by rw [step_schedule h, hq]; rfl
  cases item with
  | command w =>
    obtain ⟨_, h1, h2⟩ | ⟨h0, _⟩ := step_inputs h
    · refine ⟨hq', ?_, ?_⟩
      · rw [h1, hp, traceRuns]
        cases traceRuns items <;> simp [consAccess, sinceReset]
      · rw [h2, hl, traceRuns]
        cases traceRuns items <;> simp [consAccess]
    · rw [hq] at h0; simp [traceTurn] at h0
  | event r =>
    obtain ⟨_, h1, h2⟩ | ⟨h0, _⟩ := step_inputs h
    · exact ⟨hq', by rw [h1, hp]; rfl, by rw [h2, hl]; rfl⟩
    · rw [hq] at h0; simp [traceTurn] at h0
  | reset =>
    obtain ⟨h0, _⟩ | ⟨_, h1, h2, _⟩ := step_inputs h
    · rw [hq] at h0; exact absurd rfl h0
    · rw [traceRuns, List.tail_cons] at hl
      refine ⟨hq', ?_, by rw [h2, hl]⟩
      rw [h1, hl]
      cases hr : traceRuns items with
      | nil => exact absurd hr (traceRuns_ne_nil items)
      | cons r rs => rfl

/-- A run over the lines before goes on to what is left of the trace. -/
theorem HoldsTrace.run {before items : List TraceItem} {done : List Access} {s t : State}
    (hs : HoldsTrace done (before ++ items) s) (h : runSteps before.length s = .next t) :
    HoldsTrace (sinceReset before done) items t := by
  induction before generalizing done s with
  | nil => cases h; exact hs
  | cons item before ih =>
    obtain ⟨u, hu, ht⟩ := runSteps_succ_next h
    have := ih (hs.step hu) ht
    cases item <;> exact this

/-- Every command line of a trace writes its own word: where the lines before it have run and the consumer
has issued the commands of its present run, the next step is the consumer's, at that very word. -/
theorem traceLine_writes_own_word (c : Config) (before items : List TraceItem) (w : Word) {t : State}
    (h : runSteps before.length (loadTrace c (before ++ .command w :: items)) = .next t)
    (hpos : t.progPos = (sinceReset before []).length) :
    t.schedule.head? = some .consumer ∧ t.program[t.progPos]? = some (.write 0#6 w) := by
  obtain ⟨hq, hp, _⟩ := (loadTrace_holds c (before ++ .command w :: items)).run h
  refine ⟨by rw [hq]; rfl, ?_⟩
  rw [hp, hpos, traceRuns]
  cases traceRuns items <;> simp [consAccess]

end Sys2Proof.Machine
end

