-- ==== Sys2Proof/Tests/Slice0.lean ====
section
/-! SUPPORT. Own tests: words written from the spec's encodings, one-step examples with the values of
95_test_vectors.md, and a witness for the hypotheses of every statement that has some. -/

namespace Sys2Proof.Tests

open Sys2Proof.Machine

/-! ### Helpers -/

/-- The example parameter set EX of 95_test_vectors.md. -/
def exParams : Params where
  iNum := 1000
  iDen := 50
  vNum := 11
  vDen := 5
  utbBase := 0

def exConfig : Config := ⟨exParams, by decide⟩

def rawConfig : Config := ⟨{ exParams with sendRaw := true }, by decide⟩

def padConfig : Config := ⟨{ exParams with padLen := .two }, by decide⟩

def debugConfig : Config := ⟨{ exParams with fixedDebugFields := true }, by decide⟩

/-- The state after reset under EX. -/
def ex : State := State.resetWith exConfig

/-- An outcome is a next state with a property. -/
def answers (o : Outcome) (p : State → Bool) : Bool :=
  match o with
  | .next t => p t
  | .fault _ => false
  | .refused _ => false

/-- The consumer's next access is a command word, and the next turn is the consumer's. -/
def writing (w : Word) (s : State) : State :=
  { s with program := [.write 0#6 w], progPos := 0, schedule := [.consumer] }

/-- The next turn is an event. -/
def driving (r : EventRecord) (s : State) : State := { s with schedule := [.event r] }

/-- PKT of V-F1: A5 00 02 00 01 CF. -/
def vF1 : Memory := [(0, 0xA5#8), (2, 0x02#8), (4, 0x01#8), (5, 0xCF#8)]

/-! ### WellFormed: each check refuses an ill-formed term (V-E9, V-E10, V-E11, V-K7) -/

theorem test_span_seven_refused_at_six : (Instr.crcSpan 7#16).wellFormed 6 = false := by decide

theorem test_span_nine_refused_at_eight : (Instr.crcSpan 9#16).wellFormed 8 = false := by decide

theorem test_span_seven_allowed_at_eight : (Instr.crcSpan 7#16).wellFormed 8 = true := by decide

theorem test_config_result_range_refused :
    Config.of? { exParams with iNum := 100000, iDen := 1 } = none := by decide

theorem test_config_zero_divisor_refused :
    Config.of? { exParams with vDen := 0 } = none ∧ Config.of? { exParams with iDen := 0 } = none ∧
      Config.of? { exParams with fullScale := 0 } = none := by decide

theorem test_config_code_bits_refused :
    Config.of? { exParams with codeBits := 17 } = none ∧
      Config.of? { exParams with codeBits := 0 } = none := by decide

theorem test_config_ex_legal : (Config.of? exParams).isSome = true := by decide

/-! ### Decoding: words written bit by bit from 30_encoding.md R70 and R72, IMM16, RSV, OP -/

theorem test_decode_nop :
    decodeCommand 6 0b0000000000000000_00000000_00000000#32 = .ok .nop := by rfl

theorem test_decode_consume :
    decodeCommand 6 0b0000000000000000_00000000_00000001#32 = .ok .consume := by rfl

theorem test_decode_convI :
    decodeCommand 6 0b0000000000000000_00000000_00000010#32 = .ok .convI := by rfl

theorem test_decode_convV :
    decodeCommand 6 0b0000000000000000_00000000_00000011#32 = .ok .convV := by rfl

theorem test_decode_convIImm :
    decodeCommand 6 0b1111111111111111_00000000_00000100#32 = .ok (.convIImm 0xFFFF#16) := by rfl

theorem test_decode_convVImm :
    decodeCommand 6 0b0001001000110100_00000000_00000101#32 = .ok (.convVImm 0x1234#16) := by rfl

theorem test_decode_build :
    decodeCommand 6 0b0000000000000000_00000000_00000110#32 = .ok .build := by rfl

theorem test_decode_startSend :
    decodeCommand 6 0b0000000000000000_00000000_00000111#32 = .ok .startSend := by rfl

theorem test_decode_crcSpan :
    decodeCommand 6 0b0000000000000110_00000000_00001000#32 = .ok (.crcSpan 6#16) := by rfl

theorem test_decode_wfi :
    decodeCommand 6 0b0000000000000000_00000000_00001001#32 = .ok .wfi := by rfl

theorem test_decode_trig : decodeEvent ⟨0b0001#4, 0#32⟩ = .ok .evtTrig := by rfl

theorem test_decode_convDone :
    decodeEvent ⟨0b0010#4, 0b0000001000000000_0000000100000000#32⟩ =
      .ok (.evtConvDone 0x0100#16 0x0200#16) := by rfl

theorem test_decode_byteReady : decodeEvent ⟨0b0011#4, 0#32⟩ = .ok .evtByteReady := by rfl

theorem test_decode_txTake : decodeEvent ⟨0b0100#4, 0#32⟩ = .ok .evtTxTake := by rfl

theorem test_decode_fault : decodeEvent ⟨0b0101#4, 0#32⟩ = .ok .evtFault := by rfl

/-- V-E2, V-E3, V-E5, V-E9. -/
theorem test_decode_illegal :
    decodeCommand 6 0x00010000#32 = .error .operandNotZero ∧
      decodeCommand 6 0x00000100#32 = .error .reservedNotZero ∧
      decodeCommand 6 0x000000FF#32 = .error .unknownOpcode ∧
      decodeCommand 6 0x00070008#32 = .error .spanTooLong := ⟨rfl, rfl, rfl, rfl⟩

/-- The table's numbering: commands in 32 bits, the EV codes of the event rows in one byte. -/
theorem test_decodeTableWord :
    decodeTableWord 32 0x00060008 = some (.crcSpan 6#16) ∧ decodeTableWord 8 0x1 = some .evtTrig ∧
      decodeTableWord 8 0x5 = some .evtFault ∧ decodeTableWord 8 0x6 = none ∧
      decodeTableWord 40 0x020001002 = some (.evtConvDone 0x0100#16 0x0200#16) :=
  ⟨rfl, rfl, rfl, rfl, rfl⟩

theorem test_withFetchWord_runs_nop :
    answers (step (State.reset.withFetchWord 32 0x00000000)) (fun t => t.progPos == 1) = true := by
  decide

theorem test_withFetchWord_runs_trig :
    answers (step (State.reset.withFetchWord 8 0x1)) (fun t => t.convBusy) = true := by decide

/-- 30_encoding.md R79: an operand that does not fit is rejected, and `.word` writes any word. -/
theorem test_assemble_lines :
    assembleLine 6 "CONV_I_IMM #0x0FFF ; comment" = .ok [.command 0x0FFF0004#32] ∧
      assembleLine 6 "CRC_SPAN #7" = .error .operandTooLarge ∧
      assembleLine 6 "NOP #0" = .error .operandNotAllowed ∧
      assembleLine 6 "!CONV_DONE i=0x0100 v=0x0200" = .ok [.event ⟨0x2#4, 0x02000100#32⟩] ∧
      assembleLine 6 ".word 0x00000100" = .ok [.command 0x00000100#32] :=
  ⟨rfl, rfl, rfl, rfl, rfl⟩

/-- 30_encoding.md R79: a command line behind a `!RESET` line writes its own word, here of the trace
CONSUME, `!RESET`, BUILD. -/
theorem test_trace_line_behind_reset :
    answers (step { loadTrace exConfig [.command 0x00000001#32, .reset, .command 0x00000006#32] with
        progPos := 1, schedule := [.reset, .consumer] })
      (fun t => t.program[t.progPos]? == some (.write 0#6 0x00000006#32)
        && answers (step t) (fun u => memRead u.pkt 0 == 0xA5#8)) = true := by decide +kernel

/-! ### One step per instruction, with values of 95_test_vectors.md -/

/-- V-H12. -/
theorem test_nop :
    answers (exec .nop { ex with ready := true, curUa := 7#32 })
      (fun t => t.ready && t.curUa == 7#32) = true := by decide

/-- V-H6. -/
theorem test_consume_fresh :
    answers (exec .consume { ex with ready := true, rawI := 0x0100#16, rawV := 0x0200#16 })
      (fun t => t.sampleI == 0x0100#16 && t.sampleV == 0x0200#16 && !t.ready && t.consumed) = true := by
  decide

/-- V-H7. -/
theorem test_consume_stale :
    answers (exec .consume
        { ex with consumed := true, rawI := 9#16, sampleI := 0x0100#16, sampleV := 0x0200#16 })
      (fun t => t.sampleI == 0x0100#16 && t.sampleV == 0x0200#16 && !t.consumed) = true := by decide

/-- V-K5. -/
theorem test_convI :
    answers (exec .convI { ex with sampleI := 0x0100#16, ready := true })
      (fun t => t.curUa == 0x00001018#32 && t.voltMv == 0#32 && t.ready) = true := by decide

/-- V-K5. -/
theorem test_convV :
    answers (exec .convV { ex with sampleV := 0x0200#16 })
      (fun t => t.voltMv == 0x0000038A#32 && t.curUa == 0#32) = true := by decide

/-- V-K2, the largest code. -/
theorem test_convIImm_largest :
    answers (exec (.convIImm 0xFFFF#16) ex) (fun t => t.curUa == 0x00101DF0#32) = true := by decide

/-- V-K3: two stages give 0 where one would give 16. -/
theorem test_convIImm_two_stages :
    answers (exec (.convIImm 1#16) { ex with curUa := 5#32 }) (fun t => t.curUa == 0#32) = true := by
  decide

/-- V-K3: two stages give 0 where one would give 1. -/
theorem test_convVImm_two_stages :
    answers (exec (.convVImm 1#16) { ex with voltMv := 5#32 }) (fun t => t.voltMv == 0#32) = true := by
  decide

/-- V-K2. -/
theorem test_convVImm_full_scale :
    answers (exec (.convVImm 0x0FFF#16) ex) (fun t => t.voltMv == 7260#32) = true := by decide

/-- V-F1: the voltage stands before the current. -/
theorem test_build_raw :
    answers (exec .build
        { State.resetWith rawConfig with sampleI := 0x0100#16, sampleV := 0x0200#16 })
      (fun t => memTake t.pkt 8 == [0xA5#8, 0x00#8, 0x02#8, 0x00#8, 0x01#8, 0xCF#8, 0#8, 0#8]) = true := by
  decide +kernel

/-- V-F7 under PAD_LEN = 2, with V-X1's error bit. -/
theorem test_build_padded_while_sending :
    answers (exec .build
        { State.resetWith padConfig with curUa := 0x1018#32, voltMv := 0x038A#32, txState := .sending })
      (fun t => memTake t.pkt 8 == [0xA5#8, 0x8A#8, 0x03#8, 0x18#8, 0x10#8, 0x81#8, 0#8, 0#8]
        && t.errBuildBusy) = true := by
  decide +kernel

/-- V-T1. -/
theorem test_startSend :
    answers (exec .startSend { ex with pkt := vF1 })
      (fun t => t.txHold == 0xA5#8 && !t.txEmpty && t.txCursor == 1#4 && t.txie
        && t.txState == .sending && t.txLine == []) = true := by decide

/-- V-T5. -/
theorem test_startSend_dropped :
    answers (exec .startSend { ex with pkt := vF1, txState := .sending, txCursor := 2#4, txie := true })
      (fun t => t.txCursor == 2#4 && t.outputs == []) = true := by decide

/-- V-C11. -/
theorem test_crcSpan_five :
    answers (exec (.crcSpan 5#16) { ex with pkt := vF1 }) (fun t => t.crcOut == 0xCF#8) = true := by
  decide +kernel

/-- V-C13: nothing carries over. -/
theorem test_crcSpan_zero :
    answers (exec (.crcSpan 0#16) { ex with pkt := vF1, crcOut := 0x55#8 })
      (fun t => t.crcOut == 0x00#8) = true := by decide

/-- V-H13: the earlier completion does not end the wait. -/
theorem test_wfi :
    answers (exec .wfi { ex with ready := true }) (fun t => t.waiting && t.ready) = true := by decide

/-- V-H1. -/
theorem test_trig :
    answers (exec .evtTrig ex)
      (fun t => t.outputs == [.convStart] && statusWord t == 0x028#32) = true := by decide

/-- V-H2. -/
theorem test_trig_while_busy :
    answers (exec .evtTrig { ex with convBusy := true, waiting := true })
      (fun t => t.convBusy && !t.waiting && convStarts t.outputs == 0) = true := by decide

/-- V-H4, V-X7: an overrun is not reported; STATUS as in V-H3. -/
theorem test_convDone_overrun :
    answers (exec (.evtConvDone 0x0100#16 0x0200#16)
        { ex with convBusy := true, ready := true, rawI := 0x0111#16, rawV := 0x0222#16 })
      (fun t => t.rawI == 0x0100#16 && t.rawV == 0x0200#16 && statusWord t == 0x021#32) = true := by
  decide

/-- V-H5, V-H11. -/
theorem test_convDone_ignored :
    answers (exec (.evtConvDone 0x0333#16 0x0444#16) { ex with waiting := true })
      (fun t => t.rawI == 0#16 && t.rawV == 0#16 && !t.ready && t.waiting) = true := by decide

/-- V-T3, V-H10. -/
theorem test_byteReady :
    answers (exec .evtByteReady
        { ex with pkt := vF1, txState := .sending, txCursor := 1#4, txie := true, waiting := true })
      (fun t => t.txCursor == 2#4 && t.txHold == 0x00#8 && !t.txEmpty && t.txState == .sending
        && !t.waiting) = true := by decide

/-- The example of 43_transmitter.md R163: the last byte. -/
theorem test_byteReady_last :
    answers (exec .evtByteReady
        { ex with pkt := vF1, txState := .sending, txCursor := 5#4, txie := true })
      (fun t => t.txHold == 0xCF#8 && t.txCursor == 0#4 && !t.txie && t.txState == .idle) = true := by
  decide

/-- V-T2, V-H9: the transport's step wakes nobody. -/
theorem test_txTake :
    answers (exec .evtTxTake { ex with txEmpty := false, txHold := 0xA5#8, waiting := true })
      (fun t => t.txLine == [0xA5#8] && t.txEmpty && t.waiting) = true := by decide

/-- V-X4. -/
theorem test_txTake_halted :
    answers (exec .evtTxTake { ex with txEmpty := false, txHold := 0xA5#8, halted := true })
      (fun t => t.txLine == [0xA5#8] && t.txEmpty) = true := by decide

/-- V-X2, and the corner case of 60_exceptions.md R214. -/
theorem test_fault :
    answers (exec .evtFault { ex with waiting := true })
      (fun t => t.halted && t.waiting && statusWord t == 0x8020#32) = true := by decide

/-- V-X3. -/
theorem test_fault_blocks_trigger :
    answers (exec .evtTrig { ex with halted := true, waiting := true })
      (fun t => !t.convBusy && t.waiting && t.outputs == []) = true := by decide

/-! ### The port and reset -/

/-- V-E13: nothing is sent. -/
theorem test_step_illegal_word :
    answers (step (writing 0x00020007#32 ex))
      (fun t => t.errIllegal && t.txState == .idle && t.progPos == 1) = true := by decide

/-- V-R3. -/
theorem test_step_write_off_cmd :
    answers (step { ex with program := [.write 5#6 0x1234#32], schedule := [.consumer] })
      (fun t => t.sampleV == 0#16 && t.progPos == 1 && !t.errIllegal) = true := by decide

/-- V-R1, V-X6. -/
theorem test_step_reset :
    answers (step { ex with halted := true, txLine := [1#8], ready := true, schedule := [.reset] })
      (fun t => statusWord t == 0x00000020#32 && t.txLine == []) = true := by decide

/-- V-R1: the values of CONFIG. -/
theorem test_config_words :
    configWord exConfig = 0x00000600#32 ∧ configWord padConfig = 0x00000802#32 ∧
      configWord rawConfig = 0x00000601#32 ∧ configWord debugConfig = 0x00000604#32 := by decide

/-- V-F10. -/
theorem test_packet_words :
    answers (exec .build { ex with curUa := 0x1018#32, voltMv := 0x038A#32 })
      (fun t => regRead t 10#6 == 0x18038AA5#32 && regRead t 11#6 == 0x00008110#32) = true := by decide +kernel

/-! ### Witnesses: the hypotheses of the statements, met together -/

theorem witness_ConsumeSnapshotsAndClearsReady :
    (blocked { ex with waiting := true } ∧ blocked { ex with halted := true }) ∧
      (mayAct { ex with ready := true } ∧ ({ ex with ready := true } : State).ready = true) ∧
      mayAct ex ∧ ex.ready = false :=
  ⟨⟨.inl rfl, .inr rfl⟩, ⟨⟨rfl, rfl⟩, rfl⟩, ⟨rfl, rfl⟩, rfl⟩

theorem witness_LatchedConversionsWriteTwoStageFloor :
    blocked { ex with waiting := true } ∧ blocked { ex with halted := true } ∧
      mayAct { ex with sampleI := 0xFFFF#16, sampleV := 0#16 } :=
  ⟨.inl rfl, .inr rfl, rfl, rfl⟩

theorem witness_ImmediateConversionsWriteTwoStageFloor :
    blocked { ex with waiting := true } ∧ blocked { ex with halted := true } ∧ mayAct ex :=
  ⟨.inl rfl, .inr rfl, rfl, rfl⟩

theorem witness_ConvertedRegistersHoldExactResults : mayAct ex := ⟨rfl, rfl⟩

theorem witness_ConverterLaws :
    (ex.cfg = ({ ex with ready := true } : State).cfg ∧
      ex.sampleI = ({ ex with ready := true } : State).sampleI ∧
      ex.sampleV = ({ ex with ready := true } : State).sampleV ∧ mayAct ex ∧
      mayAct { ex with ready := true }) ∧
    ((0xFFFE#16 : Code).toNat ≤ (0xFFFF#16 : Code).toNat ∧ (0#16 : Code).toNat ≤ (0#16 : Code).toNat) ∧
    exConfig.vrefMv = 3300 ∧ exConfig.fullScale = 4095 ∧ exConfig.iNum = 1000 ∧ exConfig.iDen = 50 :=
  ⟨⟨rfl, rfl, rfl, ⟨rfl, rfl⟩, rfl, rfl⟩, by decide, rfl, rfl, rfl, rfl⟩

theorem witness_IllegalConfigurationsAreRefused :
    Config.of? exParams = some exConfig ∧ Config.of? { exParams with iDen := 0 } = none := by decide

theorem witness_ChecksumLaws :
    ((0 : Nat) < 8 ∧ (7 : Nat) < 8) ∧ ([0xA5#8, 0x01#8] : List Byte).length = [0x80#8, 0xFF#8].length := by
  decide

theorem witness_CrcSpanWritesPrefixChecksum :
    (blocked { ex with waiting := true } ∧ blocked { ex with halted := true }) ∧ mayAct ex ∧
      (0#16 : Code).toNat ≤ ex.cfg.frameLen ∧ (6#16 : Code).toNat ≤ ex.cfg.frameLen ∧
      mayAct (State.resetWith padConfig) ∧
      (8#16 : Code).toNat ≤ (State.resetWith padConfig).cfg.frameLen ∧ ex.cfg.crcXorOut = 0#8 :=
  ⟨⟨.inl rfl, .inr rfl⟩, ⟨rfl, rfl⟩, by decide, by decide, ⟨rfl, rfl⟩, by decide, rfl⟩

theorem witness_BuildStoresTheFrame :
    (vF1.wf = true ∧ blocked { ex with pkt := vF1, waiting := true } ∧
      blocked { ex with pkt := vF1, halted := true }) ∧
    (mayAct { ex with pkt := vF1 } ∧ ex.cfg.frameLen ≤ 6) ∧
    mayAct { State.resetWith padConfig with txState := .sending } ∧
      (State.resetWith padConfig).cfg.padLen = .two ∧ (State.resetWith padConfig).cfg.frameLen ≤ 8 :=
  ⟨⟨by decide, .inl rfl, .inr rfl⟩, ⟨⟨rfl, rfl⟩, by decide⟩, ⟨rfl, rfl⟩, rfl, by decide⟩

theorem witness_BuildDependsOnItsInputsAlone :
    (ex.pkt.wf = true ∧ vF1.wf = true) ∧
    ex.curUa.extractLsb' 0 16 =
      ({ ex with pkt := vF1, curUa := 0x10000#32, ready := true } : State).curUa.extractLsb' 0 16 ∧
    ({ ex with pkt := vF1, curUa := 0x10000#32, ready := true } : State).cfg.frameLen = 6 ∧
    mayAct ex ∧ mayAct { ex with pkt := vF1, curUa := 0x10000#32, ready := true } :=
  ⟨by decide, by decide, rfl, ⟨rfl, rfl⟩, rfl, rfl⟩

theorem witness_BuiltFrameHasZeroResidue :
    (mayAct ex ∧ ex.pkt.wf = true ∧ ex.cfg.crcXorOut = 0#8) ∧
    mayAct (State.resetWith padConfig) ∧ padConfig.crcXorOut = 0#8 ∧ padConfig.padLen = .two ∧
      padConfig.padByte = 0#8 :=
  ⟨⟨⟨rfl, rfl⟩, rfl, rfl⟩, ⟨rfl, rfl⟩, rfl, rfl, rfl⟩

theorem witness_StartSendRule :
    (blocked { ex with waiting := true } ∧ blocked { ex with halted := true }) ∧
    ({ ex with txState := .sending } : State).txState = .sending ∧
    (mayAct { ex with txEmpty := false } ∧ ({ ex with txEmpty := false } : State).txState = .idle) ∧
    mayAct ex ∧ ex.txState = .idle ∧ ex.txEmpty = true :=
  ⟨⟨.inl rfl, .inr rfl⟩, rfl, ⟨⟨rfl, rfl⟩, rfl⟩, ⟨rfl, rfl⟩, rfl, rfl⟩

/-- V-T7. -/
def heldStart : State :=
  { ex with
    pkt := vF1, txEmpty := false, txHold := 0xCF#8, program := [.write 0#6 0x00000007#32]
    schedule := [.event txTakeRecord, .consumer] }

theorem witness_HeldStartSendWaitsForTheTransport :
    mayAct heldStart ∧ heldStart.txState = .idle ∧ heldStart.txEmpty = false ∧
      heldStart.program[heldStart.progPos]? = some (.write 0#6 0x00000007#32) ∧
      heldStart.schedule = [.event txTakeRecord, .consumer] ∧
      ({ heldStart with schedule := [.consumer] } : State).schedule = .consumer :: [] :=
  ⟨⟨rfl, rfl⟩, rfl, rfl, rfl, rfl, rfl⟩

theorem witness_WfiWaitsForTheNextEvent :
    blocked { ex with waiting := true } ∧ blocked { ex with halted := true } ∧ mayAct ex ∧
      ({ ex with waiting := true } : State).waiting = true ∧ Instr.build.isCommand = true :=
  ⟨.inl rfl, .inr rfl, ⟨rfl, rfl⟩, rfl, rfl⟩

theorem witness_TriggerRule :
    ({ ex with halted := true } : State).halted = true ∧ (ex.halted = false ∧ ex.convBusy = false) ∧
      ({ ex with convBusy := true } : State).halted = false ∧
      ({ ex with convBusy := true } : State).convBusy = true := ⟨rfl, ⟨rfl, rfl⟩, rfl, rfl⟩

theorem witness_ConversionDoneRule :
    ({ ex with halted := true } : State).halted = true ∧ (ex.halted = false ∧ ex.convBusy = false) ∧
      ({ ex with convBusy := true, ready := true } : State).halted = false ∧
      ({ ex with convBusy := true, ready := true } : State).convBusy = true :=
  ⟨rfl, ⟨rfl, rfl⟩, rfl, rfl⟩

/-- The frame V-F2 of a configuration, as stored. -/
def builtPkt (c : Config) : Memory := memWriteList [] 0 (frameBytes c 0x1018#16 0x038A#16)

/-- Sending at cursor k: the transport has taken the k bytes emitted so far. -/
def sendingAt (c : Config) (k : Nat) : State :=
  { State.resetWith c with
    pkt := builtPkt c, txState := .sending, txCursor := BitVec.ofNat 4 k, txie := true
    txLine := memTake (builtPkt c) k, outputs := (memTake (builtPkt c) k).map .txData }

theorem txStrobes_map (bs : List Byte) : txStrobes (bs.map .txData) = bs := by
  induction bs with
  | nil => rfl
  | cons b bs ih => simp [txStrobes, ih]

theorem builtPkt_isFrame (c : Config) : IsFrame c (builtPkt c) where
  marker := by
    rw [builtPkt, memRead_storedFrame rfl _ _ _ (by have := c.six_le_frameLen; omega)]
    rfl
  checksum := by
    have h6 := c.six_le_frameLen
    rw [builtPkt, memRead_storedFrame rfl _ _ _ (by omega),
      memTake_eq_take _ (show 5 ≤ c.frameLen by omega), memTake_storedFrame rfl]
    rfl
  padding := fun h => by
    have h8 := Config.frameLen_of_two h
    rw [builtPkt, memRead_storedFrame rfl _ _ _ (by omega), memRead_storedFrame rfl _ _ _ (by omega)]
    simp [frameBytes, frameHead, framePad, h, PadLen.bytes, List.replicate]

theorem builtPkt_wf (c : Config) : (builtPkt c).wf = true := by
  unfold builtPkt
  exact memWriteList_wf rfl _ _

theorem builtPkt_tail (c : Config) (a : Nat) (ha : c.frameLen ≤ a) : memRead (builtPkt c) a = 0x00#8 := by
  unfold builtPkt
  rw [memRead_behindFrame rfl _ _ _ ha]
  rfl

theorem sendingAt_pkt (c : Config) (k : Nat) : (sendingAt c k).pkt = builtPkt c := by
  simp only [sendingAt]

/-- The invariant meets every cursor position of a frame in progress, both boundaries included. -/
theorem sendingAt_inv (c : Config) {k : Nat} (h1 : 1 ≤ k) (hk : k ≤ c.frameLen - 1) :
    BlockInv (sendingAt c k) := by
  have h8 := c.frameLen_le_eight
  have hn : (BitVec.ofNat 4 k).toNat = k := by
    rw [BitVec.toNat_ofNat]
    omega
  exact
    { notify := by simp [sendingAt]
      idleCursor := by simp [sendingAt]
      sendingCursor := fun _ => by
        show 1 ≤ (BitVec.ofNat 4 k).toNat ∧ (BitVec.ofNat 4 k).toNat ≤ c.frameLen - 1
        rw [hn]
        exact ⟨h1, hk⟩
      canonical := by rw [sendingAt_pkt]; exact builtPkt_wf c
      tail := fun a ha => by rw [sendingAt_pkt]; exact builtPkt_tail c a ha
      contents := by
        right
        rw [sendingAt_pkt]
        exact builtPkt_isFrame c
      lossless := by
        show txStrobes ((memTake (builtPkt c) k).map .txData) = memTake (builtPkt c) k ++ []
        rw [txStrobes_map, List.append_nil] }

/-- The invariant at reset, with any inputs still to come. -/
theorem ready_inv (c : Config) (p : List Access) (q : List Turn) :
    BlockInv { State.resetWith c with program := p, schedule := q } where
  notify := by simp [State.resetWith]
  idleCursor := fun _ => rfl
  sendingCursor := by simp [State.resetWith]
  canonical := rfl
  tail := fun _ _ => rfl
  contents := .inl fun _ => rfl
  lossless := rfl

theorem witness_ByteReadyRule :
    (ex.txie = false ∨ ex.txEmpty = false) ∧
    ({ ex with halted := true } : State).halted = true ∧
    ((sendingAt exConfig 1).txie = true ∧ (sendingAt exConfig 1).txEmpty = true ∧
      (sendingAt exConfig 1).halted = false ∧
      (sendingAt exConfig 1).txCursor.toNat + 1 < (sendingAt exConfig 1).cfg.frameLen) ∧
    (sendingAt exConfig 4).txCursor.toNat + 1 < (sendingAt exConfig 4).cfg.frameLen ∧
    (sendingAt exConfig 5).txCursor.toNat + 1 = (sendingAt exConfig 5).cfg.frameLen ∧
    (sendingAt padConfig 7).txCursor.toNat + 1 = (sendingAt padConfig 7).cfg.frameLen :=
  ⟨.inl rfl, rfl, ⟨rfl, rfl, rfl, by decide⟩, by decide, by decide, by decide⟩

theorem witness_TransportTakeRule : ex.txEmpty = true ∧ heldStart.txEmpty = false := ⟨rfl, rfl⟩

theorem witness_HaltedBlockTakesNothing :
    ∃ s t : State, s.halted = true ∧ s.txEmpty = false ∧ step s = .next t ∧
      s.schedule.head? ≠ some .reset ∧ s.schedule.head? ≠ some (.event txTakeRecord) :=
  ⟨driving ⟨0x1#4, 0#32⟩ { ex with halted := true, txEmpty := false }, _, rfl, rfl, rfl,
    by decide, by decide⟩

theorem witness_StepRunsTheDecodedInstruction :
    ((writing 0x00000006#32 ex).schedule = .consumer :: [] ∧ (writing 0x00000006#32 ex).waiting = false ∧
      (writing 0x00000006#32 ex).program[(writing 0x00000006#32 ex).progPos]? =
        some (.write 0#6 0x00000006#32) ∧
      decodeCommand (writing 0x00000006#32 ex).cfg.frameLen 0x00000006#32 = .ok .build ∧
      enabled .build (writing 0x00000006#32 ex) = true) ∧
    (driving byteReadyRecord ex).schedule = .event byteReadyRecord :: [] ∧
      decodeEvent byteReadyRecord = .ok .evtByteReady :=
  ⟨⟨rfl, rfl, rfl, rfl, rfl⟩, rfl, rfl⟩

theorem witness_PlacedInstructionRunsNext :
    ((Instr.crcSpan 6#16).wellFormed ex.cfg.frameLen = true ∧
      enabled (.crcSpan 6#16) { ex with waiting := false } = true) ∧
    (Instr.evtTxTake.wellFormed heldStart.cfg.frameLen = true ∧
      enabled .evtTxTake { heldStart with waiting := false } = true) := by decide

/-- One word for each of the four conditions of 30_encoding.md R75, at the edges of their ranges. -/
theorem witness_IllegalWordSetsOnlyErrIllegal :
    ((writing 0x00000100#32 ex).schedule = .consumer :: [] ∧ mayAct (writing 0x00000100#32 ex) ∧
      (writing 0x00000100#32 ex).program[0]? = some (.write 0#6 0x00000100#32)) ∧
    (0x00000100#32 : Word).extractLsb' 8 8 ≠ 0#8 ∧
    0x0A ≤ ((0x0000000A#32 : Word).extractLsb' 0 8).toNat ∧
    (((0x00010000#32 : Word).extractLsb' 0 8).toNat ∈ [0x00, 0x01, 0x02, 0x03, 0x06, 0x07, 0x09] ∧
      (0x00010000#32 : Word).extractLsb' 16 16 ≠ 0#16) ∧
    ((0x00070008#32 : Word).extractLsb' 0 8 = 0x08#8 ∧
      ex.cfg.frameLen < ((0x00070008#32 : Word).extractLsb' 16 16).toNat) :=
  ⟨⟨rfl, ⟨rfl, rfl⟩, rfl⟩, by decide, by decide, by decide, by decide⟩

theorem witness_WritesOffCmdAreIgnored :
    ∃ s : State, s.schedule = .consumer :: [] ∧ s.waiting = false ∧
      s.program[s.progPos]? = some (.write 63#6 1#32) ∧ (63#6 : RegIdx) ≠ 0#6 :=
  ⟨{ ex with program := [.write 63#6 1#32], schedule := [.consumer] }, rfl, rfl, rfl, by decide⟩

theorem witness_RegisterReadsChangeNothing :
    (∃ s : State, s.schedule = .consumer :: [] ∧ s.waiting = false ∧
      s.program[s.progPos]? = some (.read 1#6)) ∧
    ∃ s : State, s.schedule = .observe 12#6 :: [] ∧ s.waiting = true ∧ s.halted = true :=
  ⟨⟨{ ex with program := [.read 1#6], schedule := [.consumer] }, rfl, rfl, rfl⟩,
    { ex with waiting := true, halted := true, schedule := [.observe 12#6] }, rfl, rfl, rfl⟩

theorem witness_WaitingConsumerHasNoStep :
    ∃ s : State, s.schedule = .consumer :: [] ∧ s.waiting = true :=
  ⟨{ writing 0x00000000#32 ex with waiting := true }, rfl, rfl⟩

theorem witness_ResetSetsEveryRegister :
    (∃ s : State, s.schedule = .reset :: [.consumer] ∧ s.laterRuns = []) ∧
      ∃ s : State, s.schedule = .reset :: [.consumer] ∧ s.laterRuns = [.write 0#6 6#32] :: [] :=
  ⟨⟨{ ex with schedule := [.reset, .consumer] }, rfl, rfl⟩,
    { ex with schedule := [.reset, .consumer], laterRuns := [[.write 0#6 6#32]] }, rfl, rfl⟩

theorem witness_StatusLayout :
    (6 : Nat) ∉ [0, 1, 2, 3, 4, 5, 8, 9, 15] ∧ (31 : Nat) ∉ [0, 1, 2, 3, 4, 5, 8, 9, 15] := by decide

theorem witness_ConfigLayoutAndConstancy :
    exConfig.padLen = .zero ∧ padConfig.padLen = .two ∧
      (exConfig.sendRaw = exConfig.sendRaw ∧ exConfig.padLen = rawConfig.padLen ∧
        exConfig.fixedDebugFields = rawConfig.fixedDebugFields) ∧
      ∃ t, step { ex with schedule := [.reset] } = .next t :=
  ⟨rfl, rfl, ⟨rfl, rfl, rfl⟩, _, rfl⟩

theorem witness_RegisterMap :
    (0 : Nat) < 4 ∧ (3 : Nat) < 4 ∧ 13 ≤ (13#6 : RegIdx).toNat ∧ 13 ≤ (63#6 : RegIdx).toNat := by decide

theorem witness_DecodeOfEncodeIsTheInstruction :
    (Instr.crcSpan 0#16).wellFormed 6 = true ∧ (Instr.crcSpan 6#16).wellFormed 6 = true ∧
      (Instr.crcSpan 8#16).wellFormed 8 = true ∧ (Instr.convIImm 0xFFFF#16).wellFormed 6 = true := by
  decide

theorem witness_DecodedEncodingsAreCanonical :
    decode 6 (.command 0x00060008#32) = .ok (.crcSpan 6#16) ∧
      decode 6 (.event ⟨0x5#4, 0#32⟩) = .ok .evtFault := ⟨rfl, rfl⟩

/-- The edges of the unused EV codes, and a payload on each event that carries none. -/
theorem witness_EventRecordsDecodeOrAreRefused :
    (driving ⟨0x0#4, 0#32⟩ ex).schedule = .event ⟨0x0#4, 0#32⟩ :: [] ∧
      (0x0#4 : BitVec 4).toNat ∉ [1, 2, 3, 4, 5] ∧ (0x6#4 : BitVec 4).toNat ∉ [1, 2, 3, 4, 5] ∧
      (0xF#4 : BitVec 4).toNat ∉ [1, 2, 3, 4, 5] ∧ (0x1#4 : BitVec 4).toNat ∈ [1, 3, 4, 5] ∧
      (0x5#4 : BitVec 4).toNat ∈ [1, 3, 4, 5] ∧ (0x00000001#32 : Word) ≠ 0#32 :=
  ⟨rfl, by decide, by decide, by decide, by decide, by decide, by decide⟩

theorem witness_AssemblerProducesLegalWords :
    assembleLine exConfig.frameLen "CRC_SPAN #6" = .ok [.command 0x00060008#32] ∧
      (lineWords [] "CRC_SPAN #6".toList).head? ≠ some ".word".toList ∧
      TraceItem.command 0x00060008#32 ∈ [TraceItem.command 0x00060008#32] :=
  ⟨rfl, by decide, by decide⟩

/-- Each register changed by its writer. -/
theorem witness_DatapathRegistersHaveTheirWritersOnly :
    answers (exec (.evtConvDone 1#16 0#16) { ex with convBusy := true }) (fun t => t.rawI != 0#16) = true ∧
      answers (exec .consume { ex with ready := true, rawV := 1#16 }) (fun t => t.sampleV != 0#16) = true ∧
      answers (exec (.convIImm 0xFFFF#16) ex) (fun t => t.curUa != 0#32) = true ∧
      answers (exec (.convVImm 0xFFFF#16) ex) (fun t => t.voltMv != 0#32) = true ∧
      answers (exec (.crcSpan 5#16) { ex with pkt := vF1 }) (fun t => t.crcOut != 0#8) = true ∧
      answers (exec .consume { ex with ready := true }) (fun t => t.consumed != false) = true := by
  decide +kernel

theorem witness_OnlyBuildWritesThePacket :
    (∃ t, exec .startSend { ex with pkt := vF1 } = .next t ∧ Instr.startSend ≠ .build) ∧
      (∃ t, exec .build { ex with pkt := vF1 } = .next t) ∧ vF1.wf = true ∧ ex.cfg.frameLen ≤ 6 :=
  ⟨⟨_, rfl, by decide⟩, ⟨_, rfl⟩, by decide, by decide⟩

theorem witness_OnlyTheFourTransitionsMoveTheEngine :
    (BlockInv ex ∧ ∃ t, exec .startSend ex = .next t) ∧
      (BlockInv (sendingAt exConfig 1) ∧ ∃ t, exec .evtByteReady (sendingAt exConfig 1) = .next t) ∧
      (BlockInv (sendingAt padConfig 7) ∧ ∃ t, exec .evtByteReady (sendingAt padConfig 7) = .next t) :=
  ⟨⟨ready_inv exConfig [] [], _, rfl⟩,
    ⟨sendingAt_inv exConfig (by decide) (by decide), _, rfl⟩,
    sendingAt_inv padConfig (by decide) (by decide), _, rfl⟩

theorem witness_HandoffFlagsHaveTheirWritersOnly :
    answers (exec (.evtConvDone 1#16 2#16) { ex with convBusy := true })
        (fun t => t.ready && !t.convBusy) = true ∧
      answers (exec .consume { ex with ready := true }) (fun t => !t.ready) = true ∧
      answers (exec .evtTrig ex) (fun t => t.convBusy) = true ∧
      answers (exec .evtTrig { ex with convBusy := true }) (fun t => t.convBusy) = true := by decide

theorem witness_OnlyWakingEventsEndTheWait :
    BlockInv { sendingAt exConfig 1 with waiting := true } ∧
      ({ sendingAt exConfig 1 with waiting := true } : State).waiting = true ∧ ex.waiting = false := by
  have h := sendingAt_inv exConfig (k := 1) (by decide) (by decide)
  exact ⟨⟨h.notify, h.idleCursor, h.sendingCursor, h.canonical, h.tail, h.contents, h.lossless⟩, rfl, rfl⟩

theorem witness_WakeStrobesExactlyWhereAWaitEnds :
    ∃ t, exec .evtTrig { ex with waiting := true } = .next t ∧ t.waiting = false := ⟨_, rfl, rfl⟩

theorem witness_ErrorBitsAreStickyUntilReset :
    (∃ t, step (driving ⟨0x1#4, 0#32⟩ { ex with errIllegal := true, errBuildBusy := true }) = .next t) ∧
    (∃ t, step (driving ⟨0x1#4, 0#32⟩ { ex with halted := true }) = .next t) ∧
    (driving ⟨0x1#4, 0#32⟩ ex).schedule.head? ≠ some .reset ∧
    (Instr.build.wellFormed ex.cfg.frameLen = true ∧
      ∃ t, exec .build { ex with txState := .sending } = .next t ∧ t.errBuildBusy = true) ∧
    (∃ t, exec .evtFault ex = .next t ∧ t.halted = true) ∧
    faulted { heldStart with errBuildBusy := true } = true ∧
      .reset ∉ ({ heldStart with errBuildBusy := true } : State).schedule.take 2 :=
  ⟨⟨_, rfl⟩, ⟨_, rfl⟩, by decide, ⟨rfl, _, rfl, rfl⟩, ⟨_, rfl, rfl⟩, rfl, by decide⟩

theorem witness_ByteReadyLevelSurvivesOtherEvents :
    Instr.evtTrig.isCommand = false ∧ Instr.evtTrig ≠ .evtByteReady ∧
      enabled .evtByteReady (sendingAt exConfig 1) = true ∧
      ∃ t, exec .evtTrig (sendingAt exConfig 1) = .next t := ⟨rfl, by decide, rfl, _, rfl⟩

theorem witness_BuildWhileSendingMixesTwoFrames :
    mayAct (sendingAt exConfig 2) ∧ (sendingAt exConfig 2).pkt.wf = true ∧
      (sendingAt exConfig 2).txState = .sending := by
  rw [sendingAt_pkt]
  exact ⟨⟨rfl, rfl⟩, builtPkt_wf _, rfl⟩

theorem witness_PacketMemoryIsCanonical :
    vF1.wf = true ∧ (memWrite vF1 0 0x00#8).wf = true ∧
      ∀ a, memRead vF1 a = memRead (memWrite vF1 0 0xA5#8) a :=
  ⟨by decide, by decide, fun a => by
    have h : memWrite vF1 0 0xA5#8 = vF1 := by decide
    rw [h]⟩

theorem witness_EveryStepKeepsTheInvariant :
    BlockInv { State.resetWith exConfig with program := [.write 0#6 0x00000006#32], schedule := [.consumer] } ∧
      ∃ t, step { State.resetWith exConfig with
        program := [.write 0#6 0x00000006#32], schedule := [.consumer] } = .next t :=
  ⟨ready_inv _ _ _, _, rfl⟩

theorem witness_EveryInstructionAnswersANextState :
    BlockInv (sendingAt padConfig 7) ∧
      ∃ r, exec .evtByteReady { ex with txie := true, txCursor := 8#4 } = .fault r :=
  ⟨sendingAt_inv padConfig (by decide) (by decide), _, rfl⟩

/-- The consumer's turn issues START_SEND, then the transport takes and asks until the frame is out. -/
def frameRun : State :=
  { State.resetWith exConfig with
    program := [.write 0#6 0x00000007#32], schedule := .consumer :: transportRounds 5 }

theorem witness_EveryStepConservesTheByteStream :
    BlockInv frameRun ∧ frameRun.schedule.head? ≠ some .reset ∧
      ∃ t, step frameRun = .next t ∧ t.errBuildBusy = false :=
  ⟨ready_inv _ _ _, by decide, _, rfl, rfl⟩

theorem answers_next {o : Outcome} {p : State → Bool} (h : answers o p = true) :
    ∃ u, o = .next u ∧ p u = true := by
  cases o with
  | next u => exact ⟨u, rfl, h⟩
  | fault _ => cases h
  | refused _ => cases h

theorem frameRun_sends (n : Nat) (hn : n < 10) :
    answers (runSteps (n + 1) frameRun)
      (fun u => decide (u.txState = .sending ∧ u.schedule.head? ≠ some .reset)) = true := by
  have : ∀ m : Fin 10, answers (runSteps (m.val + 1) frameRun)
      (fun u => decide (u.txState = .sending ∧ u.schedule.head? ≠ some .reset)) = true := by decide
  exact this ⟨n, hn⟩

theorem witness_FrameIsEmittedWholeAndInOrder :
    ∃ s1 t : State, BlockInv frameRun ∧ step frameRun = .next s1 ∧ frameRun.txState = .idle ∧
      s1.txState = .sending ∧
      (∀ n, n < 10 → ∃ u, runSteps n s1 = .next u ∧ u.txState = .sending ∧
        u.schedule.head? ≠ some .reset) ∧
      runSteps 10 s1 = .next t ∧ t.txState = .idle ∧ t.errBuildBusy = false := by
  refine ⟨_, _, ready_inv _ _ _, rfl, rfl, rfl, ?_, rfl, rfl, rfl⟩
  intro n hn
  obtain ⟨u, hu, hp⟩ := answers_next (frameRun_sends n hn)
  exact ⟨u, hu, of_decide_eq_true hp⟩

/-- Sending right after START_SEND: the marker is in the transport. -/
def justStarted : State :=
  { sendingAt exConfig 1 with
    txEmpty := false, txHold := 0xA5#8, txLine := [], outputs := [.txData 0xA5#8]
    schedule := transportRounds 5 ++ [.consumer] }

theorem witness_FrameCompletesWithTheTransport :
    (BlockInv justStarted ∧ justStarted.halted = false ∧ justStarted.txState = .sending ∧
      justStarted.txEmpty = false ∧ justStarted.errBuildBusy = false ∧
      justStarted.schedule =
        transportRounds (justStarted.cfg.frameLen - justStarted.txCursor.toNat) ++ [.consumer]) ∧
    (∃ t, step justStarted = .next t) ∧ justStarted.schedule.head? ≠ some .reset ∧
      justStarted.schedule.head? ≠ some (.event byteReadyRecord) := by
  have h := sendingAt_inv exConfig (k := 1) (by decide) (by decide)
  exact ⟨⟨⟨h.notify, h.idleCursor, h.sendingCursor, h.canonical, h.tail, h.contents, rfl⟩, rfl, rfl, rfl, rfl, rfl⟩,
    ⟨_, rfl⟩, by decide, by decide⟩

/-- A completion, then a trigger; the codes stay unread. -/
def handoffRun : State :=
  { ex with
    convBusy := true
    schedule := [.event (convDoneRecord 0x0100#16 0x0200#16), .event ⟨0x1#4, 0#32⟩] }

theorem witness_LatestCompletionIsHandedOver :
    ∃ t : State, handoffRun.halted = false ∧ handoffRun.convBusy = true ∧
      handoffRun.schedule = .event (convDoneRecord 0x0100#16 0x0200#16) :: [.event ⟨0x1#4, 0#32⟩] ∧
      (∀ turn ∈ ([.event ⟨0x1#4, 0#32⟩] : List Turn).take 1, keepsRaw turn = true) ∧
      runSteps (1 + 1) handoffRun = .next t ∧ mayAct t ∧ t.ready = true :=
  ⟨_, rfl, rfl, rfl, by decide, rfl, ⟨rfl, rfl⟩, rfl⟩

/-- Pairs whose second code is twice the first. -/
def doubled (codeI codeV : Code) : Prop := codeV = codeI + codeI

theorem witness_NoTornPairOfCodes :
    ∃ t : State, doubled 0#16 0#16 ∧ doubled handoffRun.rawI handoffRun.rawV ∧
      doubled handoffRun.sampleI handoffRun.sampleV ∧
      (∀ codeI codeV, handoffRun.schedule.head? = some (.event (convDoneRecord codeI codeV)) →
        doubled codeI codeV) ∧ step handoffRun = .next t := by
  refine ⟨_, rfl, rfl, rfl, ?_, rfl⟩
  intro codeI codeV h
  simp only [handoffRun, List.head?_cons, Option.some.injEq, Turn.event.injEq, convDoneRecord,
    EventRecord.mk.injEq, true_and] at h
  have hv := congrArg codeVField h
  have hi := congrArg codeIField h
  simp only [codeVField_append, codeIField_append] at hv hi
  subst hv hi
  rfl

theorem witness_SamplingCycleSendsTheConvertedFrame :
    BlockInv ex ∧ ex.halted = false ∧ ex.convBusy = false ∧ ex.txState = .idle ∧ ex.txEmpty = true ∧
      ex.cfg.sendRaw = false ∧ ex.cfg.fixedDebugFields = false ∧ ex.errBuildBusy = false :=
  ⟨ready_inv exConfig [] [], rfl, rfl, rfl, rfl, rfl, rfl, rfl⟩

end Sys2Proof.Tests
end

section
/-! PROOFS. The scope (00_scope.md): which parameters are a configuration. -/

namespace Sys2Proof

/-- 40_converter.md R109: a result of the two stages does not fall when the code grows. -/
theorem twoStage_mono {a b : Nat} (h : a ≤ b) (vref full num den : Nat) :
    (a * vref / full) * num / den ≤ (b * vref / full) * num / den :=
  Nat.div_le_div_right (Nat.mul_le_mul_right num
    (Nat.div_le_div_right (Nat.mul_le_mul_right vref h)))

/-- 40_converter.md R103, R104: the largest code decides whether all codes convert below a bound. -/
theorem maxMillivolts_fits_iff (p : Params) (num den bound : Nat) :
    p.maxMillivolts * num / den < bound ↔
      ∀ c, c ≤ 65535 → (c * p.vrefMv / p.fullScale) * num / den < bound := by
  constructor
  · intro hmax c hc
    exact lt_of_le_of_lt (twoStage_mono hc p.vrefMv p.fullScale num den) hmax
  · intro hall
    exact hall 65535 le_rfl

theorem Params.legal_iff (p : Params) :
    p.legal = true ↔
      (1 ≤ p.codeBits ∧ p.codeBits ≤ 16) ∧ 1 ≤ p.fullScale ∧ 1 ≤ p.iDen ∧ 1 ≤ p.vDen ∧
      p.maxMillivolts * p.iNum / p.iDen < 2 ^ 32 ∧
      p.maxMillivolts * p.vNum / p.vDen < 2 ^ 32 := by
  simp only [Params.legal, Bool.and_eq_true, decide_eq_true_eq, and_assoc]

theorem Config.of?_isSome (p : Params) : (Config.of? p).isSome = true ↔ p.legal = true := by
  unfold Config.of?
  split
  · next h => exact iff_of_true rfl h
  · next h => exact iff_of_false Bool.false_ne_true h

theorem Config.of?_toParams {p : Params} {c : Config} (h : Config.of? p = some c) :
    c.toParams = p := by
  unfold Config.of? at h
  split at h
  · cases h; rfl
  · cases h

/-- Settles O7: acceptance is `Params.legal`, whose check of the largest code speaks for every code
because the conversions are monotonic. -/
theorem illegalConfigurationsAreRefused : Obligations.IllegalConfigurationsAreRefused := by
  intro p
  refine ⟨?_, fun _ => Config.of?_toParams⟩
  rw [Config.of?_isSome, Params.legal_iff, maxMillivolts_fits_iff, maxMillivolts_fits_iff]

end Sys2Proof
end

section
/-! PROOFS. The state (10_state.md): what STATUS and CONFIG show, which instructions write each register
and flag, the packet memory, and reset. -/

namespace Sys2Proof.Machine

/-! ### The turn that comes first -/

theorem step_of_cons {s : State} {turn : Turn} {rest : List Turn} (h : s.schedule = turn :: rest) :
    step s = takeTurn turn { s with schedule := rest } := by
  simp only [step, takeNextTurn, dropTurn, h, List.tail_cons]

theorem consumerTurn_of_waiting {s : State} (h : s.waiting = true) : consumerTurn s = .next s := by
  simp only [consumerTurn, h, if_true]

/-- Settles O28: the turn is dropped, and a waiting consumer has no step in it. -/
theorem waitingConsumerHasNoStep : Obligations.WaitingConsumerHasNoStep := by
  intro s rest hs hw
  rw [step_of_cons hs]
  exact consumerTurn_of_waiting hw

/-- Settles O29: the reset turn answers `applyReset`, which is `State.resetWith` but for the turns and
the consumer's runs. -/
theorem resetSetsEveryRegister : Obligations.ResetSetsEveryRegister := by
  intro s rest hs
  refine ⟨applyReset { s with schedule := rest }, step_of_cons hs, ?_⟩
  refine ⟨rfl, rfl, rfl, rfl, rfl, rfl, rfl, rfl, fun _ => rfl, rfl, rfl, rfl, rfl, rfl, rfl, rfl, rfl,
    rfl, rfl, rfl, rfl, rfl, rfl, rfl, ?_, ?_⟩
  · intro hl; simp [applyReset, hl]
  · intro run runs hl; simp [applyReset, hl]

theorem resetWith_blockInv (c : Config) : BlockInv (State.resetWith c) where
  notify := iff_of_false Bool.false_ne_true nofun
  idleCursor _ := rfl
  sendingCursor h := nomatch h
  canonical := rfl
  tail _ _ := rfl
  contents := .inl fun _ => rfl
  lossless := rfl

/-- Settles O52: the reset values of 10_state.md R41 meet each clause, whatever the configuration. -/
theorem invariantHoldsAfterReset : Obligations.InvariantHoldsAfterReset :=
  ⟨resetWith_blockInv Config.reference, resetWith_blockInv⟩

/-! ### The packet memory -/

/-- Settles O51: the laws of the canonical form, at its lowest address 0. -/
theorem packetMemoryIsCanonical : Obligations.PacketMemoryIsCanonical :=
  ⟨fun _ a b v hm => memRead_memWrite hm a v b, fun _ a v hm => memWrite_wf hm a v,
    fun _ _ => memory_ext⟩

/-! ### The layout of STATUS and CONFIG -/

theorem getLsbD_flagAt {k : Nat} (hk : k < 32) (b : Bool) (j : Nat) :
    (flagAt k b).getLsbD j = (b && decide (j = k)) := by
  cases b with
  | false => simp [flagAt]
  | true =>
    rw [flagAt, if_pos rfl, ← BitVec.twoPow_eq, BitVec.getLsbD_twoPow, Bool.true_and,
      decide_eq_true hk, Bool.true_and]
    exact decide_eq_decide.mpr eq_comm

/-- 10_state.md R38: bit by bit, STATUS is its nine flags. -/
theorem getLsbD_statusWord (s : State) (j : Nat) :
    (statusWord s).getLsbD j =
      (s.ready && decide (j = 0) || txBusy s && decide (j = 1) || s.txie && decide (j = 2)
        || s.convBusy && decide (j = 3) || s.consumed && decide (j = 4) || s.txEmpty && decide (j = 5)
        || s.errIllegal && decide (j = 8) || s.errBuildBusy && decide (j = 9)
        || s.halted && decide (j = 15)) := by
  simp (disch := decide) only [statusWord, causeBit, BitVec.getLsbD_or, getLsbD_flagAt]

theorem statusWord_resetWith (c : Config) : statusWord (State.resetWith c) = 0x00000020#32 := by
  simp [statusWord, State.resetWith, txBusy, flagAt]

/-- Settles O31: `getLsbD_statusWord` gives every bit, the reserved ones too. -/
theorem statusLayout : Obligations.StatusLayout := by
  intro s
  refine ⟨?ready, ?busy, ?txie, ?convBusy, ?consumed, ?txEmpty, ?illegal, ?buildBusy, ?halted, ?other,
    statusWord_resetWith⟩
  case other =>
    intro k hk
    simp only [List.mem_cons, List.not_mem_nil, or_false, not_or] at hk
    simp [getLsbD_statusWord, hk]
  all_goals
    rw [getLsbD_statusWord]
    simp [txBusy]

/-- The word of 10_state.md R39 made of the three parameters it shows; FRAME_LEN follows from PAD_LEN. -/
def configBits (sendRaw : Bool) (pad : PadLen) (fixedDebug : Bool) : Word :=
  flagAt 0 sendRaw ||| flagAt 1 (pad == .two) ||| flagAt 2 fixedDebug
    ||| (BitVec.ofNat 32 (6 + pad.bytes) <<< 8)

theorem configWord_eq_configBits (c : Config) :
    configWord c = configBits c.sendRaw c.padLen c.fixedDebugFields := rfl

theorem configBits_layout (sendRaw : Bool) (pad : PadLen) (fixedDebug : Bool) :
    (configBits sendRaw pad fixedDebug).getLsbD 0 = sendRaw ∧
    ((configBits sendRaw pad fixedDebug).getLsbD 1 = true ↔ pad = .two) ∧
    (configBits sendRaw pad fixedDebug).getLsbD 2 = fixedDebug ∧
    (configBits sendRaw pad fixedDebug).extractLsb' 3 5 = 0#5 ∧
    ((configBits sendRaw pad fixedDebug).extractLsb' 8 4).toNat = 6 + pad.bytes ∧
    (configBits sendRaw pad fixedDebug).extractLsb' 12 20 = 0#20 := by
  revert sendRaw fixedDebug
  cases pad with
  | zero => decide
  | two => decide

theorem configWord_congr {c c' : Config} (hraw : c.sendRaw = c'.sendRaw) (hpad : c.padLen = c'.padLen)
    (hdebug : c.fixedDebugFields = c'.fixedDebugFields) : configWord c = configWord c' := by
  rw [configWord_eq_configBits, configWord_eq_configBits, hraw, hpad, hdebug]

/-! ### The configuration is constant -/

theorem ExecEffect.cfg_eq {i : Instr} {s t : State} (h : ExecEffect i s t) : t.cfg = s.cfg := by
  cases h <;> simp

theorem TurnEffect.cfg_eq {turn : Turn} {s t : State} (h : TurnEffect turn s t) : t.cfg = s.cfg := by
  cases h with
  | command _ _ _ _ _ _ _ h => exact h.cfg_eq
  | event _ _ _ _ _ h => exact h.cfg_eq
  | _ => rfl

theorem step_cfg {s t : State} (h : step s = .next t) : t.cfg = s.cfg := by
  obtain ⟨_, rfl⟩ | ⟨_, _, h⟩ := step_effect h
  · rfl
  · exact h.cfg_eq

/-- Settles O32: CONFIG is `configBits` of the three parameters, and no effect of a turn writes the
configuration. -/
theorem configLayoutAndConstancy : Obligations.ConfigLayoutAndConstancy := by
  refine ⟨fun c => ?_, fun c c' => configWord_congr, fun s t => step_cfg⟩
  obtain ⟨hraw, hpad, hdebug, hlow, hlen, hhigh⟩ :=
    configBits_layout c.sendRaw c.padLen c.fixedDebugFields
  exact ⟨hraw, hpad, hdebug, hlow, hlen, Config.frameLen_of_zero, Config.frameLen_of_two, hhigh⟩

/-! ### The writers of the datapath registers -/

theorem ExecEffect.raw_kept_or_convDone {i : Instr} {s t : State} (h : ExecEffect i s t) :
    (t.rawI = s.rawI ∧ t.rawV = s.rawV) ∨
      ∃ codeI codeV, i = .evtConvDone codeI codeV ∧ t.rawI = codeI ∧ t.rawV = codeV := by
  cases h with
  | convDone _ codeI codeV => exact .inr ⟨codeI, codeV, rfl, rfl, rfl⟩
  | _ => left; simp

theorem ExecEffect.sample_kept_or_consume {i : Instr} {s t : State} (h : ExecEffect i s t) :
    (t.sampleI = s.sampleI ∧ t.sampleV = s.sampleV) ∨
      (i = .consume ∧ s.ready = true ∧ t.sampleI = s.rawI ∧ t.sampleV = s.rawV) := by
  cases h with
  | consumeReady _ _ _ hr => exact .inr ⟨rfl, hr, rfl, rfl⟩
  | _ => left; simp

theorem ExecEffect.curUa_kept_or_conversion {i : Instr} {s t : State} (h : ExecEffect i s t) :
    t.curUa = s.curUa ∨ i = .convI ∨ ∃ code, i = .convIImm code := by
  cases h with
  | convI => exact .inr (.inl rfl)
  | convIImm _ code => exact .inr (.inr ⟨code, rfl⟩)
  | _ => left; simp

theorem ExecEffect.voltMv_kept_or_conversion {i : Instr} {s t : State} (h : ExecEffect i s t) :
    t.voltMv = s.voltMv ∨ i = .convV ∨ ∃ code, i = .convVImm code := by
  cases h with
  | convV => exact .inr (.inl rfl)
  | convVImm _ code => exact .inr (.inr ⟨code, rfl⟩)
  | _ => left; simp

theorem ExecEffect.crcOut_kept_or_crcSpan {i : Instr} {s t : State} (h : ExecEffect i s t) :
    t.crcOut = s.crcOut ∨ ∃ n, i = .crcSpan n := by
  cases h with
  | crcSpan _ n => exact .inr ⟨n, rfl⟩
  | _ => left; simp

theorem ExecEffect.consumed_kept_or_consume {i : Instr} {s t : State} (h : ExecEffect i s t) :
    t.consumed = s.consumed ∨ (i = .consume ∧ t.consumed = s.ready) := by
  cases h with
  | consumeReady _ _ _ hr => exact .inr ⟨rfl, hr.symm⟩
  | consumeEmpty _ _ _ hr => exact .inr ⟨rfl, hr.symm⟩
  | _ => left; simp

/-- Settles O42: each register is kept, or the instruction is one of its writers. -/
theorem datapathRegistersHaveTheirWritersOnly : Obligations.DatapathRegistersHaveTheirWritersOnly := by
  intro i s t h
  have h := exec_effect h
  refine ⟨fun hne => ?_, fun hne => ?_, h.curUa_kept_or_conversion.resolve_left,
    h.voltMv_kept_or_conversion.resolve_left, h.crcOut_kept_or_crcSpan.resolve_left,
    h.consumed_kept_or_consume.resolve_left⟩
  · exact h.raw_kept_or_convDone.resolve_left fun hkept => hne.elim (· hkept.1) (· hkept.2)
  · exact h.sample_kept_or_consume.resolve_left fun hkept => hne.elim (· hkept.1) (· hkept.2)

/-! ### The writer of the packet buffer -/

theorem ExecEffect.pkt_kept_or_build {i : Instr} {s t : State} (h : ExecEffect i s t) :
    t.pkt = s.pkt ∨
      (i = .build ∧ ∃ cf vf, t.pkt = memWriteList s.pkt 0 (frameBytes s.cfg cf vf)) := by
  cases h with
  | build =>
    exact .inr ⟨rfl, currentField (markBuildBusy s), voltageField (markBuildBusy s), by simp⟩
  | _ => left; simp

/-- Settles O43: only BUILD stores a frame, and a stored frame has FRAME_LEN bytes. -/
theorem onlyBuildWritesThePacket : Obligations.OnlyBuildWritesThePacket := by
  intro i s t h
  obtain hkept | ⟨hbuild, cf, vf, hpkt⟩ := (exec_effect h).pkt_kept_or_build
  · rw [hkept]
    exact ⟨fun _ _ => rfl, fun _ _ _ _ => rfl⟩
  · rw [hpkt]
    exact ⟨fun hne => absurd hbuild hne, fun _ hm _ ha => memRead_behindFrame hm s.cfg cf vf ha⟩

/-! ### The writers of the handoff flags -/

@[simp] theorem convStarts_wake (s : State) : convStarts (wake s).outputs = convStarts s.outputs := by
  simp only [wake_outputs]
  split <;> simp [convStarts]

theorem ExecEffect.ready_cases {i : Instr} {s t : State} (h : ExecEffect i s t) :
    t.ready = s.ready ∨ (i = .consume ∧ t.ready = false) ∨
      (s.convBusy = true ∧ t.ready = true ∧ ∃ codeI codeV, i = .evtConvDone codeI codeV) := by
  cases h with
  | consumeReady => exact .inr (.inl ⟨rfl, rfl⟩)
  | convDone _ codeI codeV _ hb => exact .inr (.inr ⟨hb, rfl, codeI, codeV, rfl⟩)
  | _ => left; simp

/-- 44_handoff.md R187, R189: CONV_BUSY is kept without a pulse, rises with one, or falls without one. -/
theorem ExecEffect.convBusy_cases {i : Instr} {s t : State} (h : ExecEffect i s t) :
    (t.convBusy = s.convBusy ∧ convStarts t.outputs = convStarts s.outputs) ∨
    (i = .evtTrig ∧ s.convBusy = false ∧ t.convBusy = true ∧
      convStarts t.outputs = convStarts s.outputs + 1) ∨
    ((∃ codeI codeV, i = .evtConvDone codeI codeV) ∧ s.convBusy = true ∧ t.convBusy = false ∧
      convStarts t.outputs = convStarts s.outputs) := by
  cases h with
  | trigStart _ _ hb => exact .inr (.inl ⟨rfl, hb, rfl, by rw [convStarts_wake]; simp [convStarts]⟩)
  | convDone _ codeI codeV _ hb =>
    exact .inr (.inr ⟨⟨codeI, codeV, rfl⟩, hb, rfl, convStarts_wake _⟩)
  | trigBusy => exact .inl ⟨rfl, convStarts_wake s⟩
  | byteReady =>
    refine .inl ⟨by simp, ?_⟩
    rw [convStarts_wake]
    simp [convStarts]
  | startSend => left; simp [convStarts]
  | _ => left; simp

/-- Settles O45: the two case lemmas say every way READY, CONV_BUSY and the pulses can go. -/
theorem handoffFlagsHaveTheirWritersOnly : Obligations.HandoffFlagsHaveTheirWritersOnly := by
  intro i s t h
  have h := exec_effect h
  refine ⟨?_, ?_, ?_, ?_, ?_⟩
  · intro hs ht
    obtain hk | ⟨_, hf⟩ | ⟨hb, _, hi⟩ := h.ready_cases
    · simp [hs, ht] at hk
    · simp [ht] at hf
    · exact ⟨hb, hi⟩
  · intro hs ht
    obtain hk | ⟨hi, _⟩ | ⟨_, hr, _⟩ := h.ready_cases
    · simp [hs, ht] at hk
    · exact hi
    · simp [ht] at hr
  · intro hs ht
    obtain ⟨hk, _⟩ | ⟨hi, _, _, hp⟩ | ⟨_, hb, _⟩ := h.convBusy_cases
    · simp [hs, ht] at hk
    · exact ⟨hi, hp⟩
    · simp [hs] at hb
  · intro hs ht
    obtain ⟨hk, _⟩ | ⟨_, hb, _⟩ | ⟨hi, _⟩ := h.convBusy_cases
    · simp [hs, ht] at hk
    · simp [hs] at hb
    · exact hi
  · intro hor
    obtain ⟨_, hp⟩ | ⟨_, hs, ht, _⟩ | ⟨_, _, _, hp⟩ := h.convBusy_cases
    · exact hp
    · simp [hs, ht] at hor
    · exact hp

/-! ### The sticky bits -/

/-- Every sticky bit set in s is set in t (10_state.md R34, R35). -/
def stickyKept (s t : State) : Prop :=
  (s.errIllegal = true → t.errIllegal = true) ∧
    (s.errBuildBusy = true → t.errBuildBusy = true) ∧ (s.halted = true → t.halted = true)

theorem faulted_of_stickyKept {s t : State} (h : stickyKept s t) (hs : faulted s = true) :
    faulted t = true := by
  obtain ⟨hill, hbusy, hhalt⟩ := h
  simp only [faulted, Bool.or_eq_true] at hs ⊢
  exact hs.imp (Or.imp hill hbusy) hhalt

theorem stickyKept_raise (e : ErrorCause) (s : State) : stickyKept s (raise e s) := by
  simp +contextual [stickyKept]

theorem ExecEffect.keepsSticky {i : Instr} {s t : State} (h : ExecEffect i s t) : stickyKept s t := by
  cases h with
  | crcTooLong => exact stickyKept_raise _ _
  | fault => exact stickyKept_raise _ _
  | build => simp +contextual [stickyKept]
  | _ => simp [stickyKept]

theorem TurnEffect.keepsSticky {turn : Turn} {s t : State} (h : TurnEffect turn s t)
    (hne : turn ≠ .reset) : stickyKept s t := by
  cases h with
  | reset => exact absurd rfl hne
  | illegal => exact stickyKept_raise _ (nextAccess s)
  | command _ _ _ _ _ _ _ h => exact h.keepsSticky
  | event _ _ _ _ _ h => exact h.keepsSticky
  | _ => exact ⟨id, id, id⟩

theorem step_keepsSticky {s t : State} (h : step s = .next t) (hne : s.schedule.head? ≠ some .reset) :
    stickyKept s t := by
  obtain ⟨_, rfl⟩ | ⟨turn, hturn, h⟩ := step_effect h
  · exact ⟨id, id, id⟩
  · exact h.keepsSticky fun hreset => hne (hreset ▸ hturn)

theorem ExecEffect.errIllegal_eq {i : Instr} {s t : State} (h : ExecEffect i s t)
    (hf : i.wellFormed s.cfg.frameLen = true) : t.errIllegal = s.errIllegal := by
  cases h with
  | crcTooLong _ n _ _ hn => exact absurd (of_decide_eq_true hf) (Nat.not_le.mpr hn)
  | _ => simp

theorem ExecEffect.errBuildBusy_cases {i : Instr} {s t : State} (h : ExecEffect i s t) :
    t.errBuildBusy = s.errBuildBusy ∨
      (i = .build ∧ t.errBuildBusy = (s.errBuildBusy || s.txState == .sending)) := by
  cases h with
  | build => exact .inr ⟨rfl, by simp⟩
  | _ => left; simp

theorem ExecEffect.halted_kept_or_fault {i : Instr} {s t : State} (h : ExecEffect i s t) :
    t.halted = s.halted ∨ i = .evtFault := by
  cases h with
  | fault => exact .inr rfl
  | _ => left; simp

theorem reset_not_mem_take_succ {k : Nat} {turns : List Turn} (h : .reset ∉ turns.take (k + 1)) :
    turns.head? ≠ some .reset ∧ .reset ∉ turns.tail.take k := by
  cases turns with
  | nil => simp
  | cons turn rest =>
    simp only [List.take_succ_cons, List.mem_cons, not_or] at h
    exact ⟨fun hhead => h.1 (Option.some.inj hhead).symm, h.2⟩

theorem runSteps_faulted {k : Nat} {s t : State} (h : runSteps k s = .next t)
    (hs : faulted s = true) (hno : .reset ∉ s.schedule.take k) : faulted t = true := by
  induction k generalizing s with
  | zero => cases h; exact hs
  | succ k ih =>
    obtain ⟨u, hu, ht⟩ := runSteps_succ_next h
    obtain ⟨hhead, htail⟩ := reset_not_mem_take_succ hno
    exact ih ht (faulted_of_stickyKept (step_keepsSticky hu hhead) hs) (step_schedule hu ▸ htail)

/-- Settles O48: every turn but reset keeps the sticky bits, so by induction over the steps a faulted
state stays faulted; what sets each bit is read off the effects of exec. -/
theorem errorBitsAreStickyUntilReset : Obligations.ErrorBitsAreStickyUntilReset := by
  refine ⟨fun s t => step_keepsSticky, fun i s t hf h => ?_, fun k s hs hno => ?_⟩
  · have h := exec_effect h
    refine ⟨h.errIllegal_eq hf, fun hs ht => ?_, fun hs ht => ?_⟩
    · obtain hk | ⟨hi, hb⟩ := h.errBuildBusy_cases
      · simp [hs, ht] at hk
      · exact ⟨hi, by simpa [hs, ht] using hb⟩
    · exact h.halted_kept_or_fault.resolve_left (by simp [hs, ht])
  · rintro ⟨t, hrun, ht⟩
    simp [runSteps_faulted hrun hs hno] at ht

end Sys2Proof.Machine
end

section
/-! PROOFS. The register port and the shared memory (20_memory.md): what an access reads and leaves
unchanged, and the handing over of a completion's codes. -/

namespace Sys2Proof.Machine

/-! ### A port access of the consumer -/

theorem step_of_access {s : State} {rest : List Turn} {a : Access}
    (hs : s.schedule = .consumer :: rest) (hw : s.waiting = false)
    (ha : s.program[s.progPos]? = some a) : step s = portAccess a { s with schedule := rest } := by
  rw [step_of_cons hs]
  simp only [takeTurn, consumerTurn, hw, Bool.false_eq_true, if_false, ha]

theorem portAccess_write_offCmd {idx : RegIdx} (hne : idx ≠ 0#6) (w : Word) (s : State) :
    portAccess (.write idx w) s = .next (nextAccess s) := if_neg hne

/-- Settles O26: the consumer's turn is the port access, and one off CMD only moves the position on. -/
theorem writesOffCmdAreIgnored : Obligations.WritesOffCmdAreIgnored := by
  intro s rest idx w hs hw ha hne
  rw [step_of_access hs hw ha, portAccess_write_offCmd hne]
  rfl

/-- Settles O27: neither reader's turn does more than `putRegData` of the value read, which does not
depend on the turns or the position. -/
theorem registerReadsChangeNothing : Obligations.RegisterReadsChangeNothing :=
  ⟨fun _ _ _ hs hw ha => step_of_access hs hw ha, fun _ _ _ hs => step_of_cons hs⟩

/-! ### The register map -/

/-- 20_memory.md R55: byte k of a packed word is the packet byte k behind its first. -/
theorem extractLsb'_packWord (m : Memory) (a : Nat) {k : Nat} (hk : k < 4) :
    (packWord m a).extractLsb' (8 * k) 8 = memRead m (a + k) := by
  unfold packWord
  match k, hk with
  | 0, _ => exact (extract_inside_low _ _ 0 8 (by decide)).trans (extract_low_byte _ _)
  | 1, _ => exact (extract_inside_low _ _ 8 8 (by decide)).trans (extract_high_byte _ _)
  | 2, _ => exact (extract_inside_high _ _ 0 8).trans (extract_low_byte _ _)
  | 3, _ => exact (extract_inside_high _ _ 8 8).trans (extract_high_byte _ _)

theorem regRead_reserved (s : State) {idx : RegIdx} (h : 13 ≤ idx.toNat) : regRead s idx = 0#32 := by
  unfold regRead
  split
  case h_14 => rfl
  all_goals omega

/-- Settles O33: each index reads its row of the map, the narrow registers by zero extension, the packet
words byte by byte. -/
theorem registerMap : Obligations.RegisterMap := by
  intro s
  refine ⟨rfl, rfl, ?rawI, ?rawV, ?sampleI, ?sampleV, rfl, rfl, ?crcOut, ?txCursor, ?packet, rfl,
    fun idx => regRead_reserved s⟩
  case packet =>
    intro k hk
    have h0 := extractLsb'_packWord s.pkt 0 hk
    rw [Nat.zero_add] at h0
    exact ⟨h0, extractLsb'_packWord s.pkt 4 hk⟩
  all_goals exact BitVec.toNat_setWidth_of_le (by decide)

/-! ### The handing over of a completion's codes -/

theorem decodeEvent_convDoneRecord (codeI codeV : Code) :
    decodeEvent (convDoneRecord codeI codeV) = .ok (.evtConvDone codeI codeV) := by
  simp [decodeEvent, convDoneRecord]

theorem step_of_event {s : State} {rest : List Turn} {r : EventRecord} {i : Instr}
    (hs : s.schedule = .event r :: rest) (hd : decodeEvent r = .ok i) :
    step s = exec i { s with schedule := rest } := by
  rw [step_of_cons hs]
  simp only [takeTurn, eventTurn, hd]

theorem exec_evtConvDone_accepted {s : State} (hh : s.halted = false) (hb : s.convBusy = true)
    (codeI codeV : Code) :
    exec (.evtConvDone codeI codeV) s =
      .next (wake { s with rawI := codeI, rawV := codeV, ready := true, convBusy := false }) := by
  simp [exec, execEvtConvDone, whenEnabled, enabled, unlessHalted, hh, hb]

theorem exec_consume_ready {s : State} (hact : mayAct s) (hr : s.ready = true) :
    exec .consume s =
      .next { s with consumed := true, sampleI := s.rawI, sampleV := s.rawV, ready := false } := by
  obtain ⟨hw, hh⟩ := hact
  simp [exec, execConsume, whenEnabled, enabled, unlessHalted, hw, hh, hr]

section
variable {codeI codeV : Code} {s t : State}

/-- 44_handoff.md R188: an accepted completion leaves its codes in RAW, unread. -/
theorem step_convDone_handedOver {rest : List Turn} (hh : s.halted = false) (hb : s.convBusy = true)
    (hs : s.schedule = .event (convDoneRecord codeI codeV) :: rest) (h : step s = .next t) :
    handedOver codeI codeV t := by
  rw [step_of_event hs (decodeEvent_convDoneRecord codeI codeV),
    exec_evtConvDone_accepted (s := { s with schedule := rest }) hh hb] at h
  cases h
  exact ⟨rfl, rfl, .inl rfl⟩

/-- READY falls only in the CONSUME that copies RAW into SAMPLE, so the codes are not lost unread. -/
theorem ExecEffect.keeps_handedOver {i : Instr} (h : ExecEffect i s t)
    (hi : ∀ cI cV, i ≠ .evtConvDone cI cV) (hs : handedOver codeI codeV s) :
    handedOver codeI codeV t := by
  cases h with
  | consumeReady =>
    obtain ⟨hI, hV, _⟩ := hs
    exact ⟨hI, hV, .inr ⟨hI, hV⟩⟩
  | convDone _ cI cV => exact absurd rfl (hi cI cV)
  | _ => simpa [handedOver] using hs

theorem decodeEvent_ne_convDone {r : EventRecord} {i : Instr} (h : decodeEvent r = .ok i)
    (hr : r.ev ≠ 0x2#4) (cI cV : Code) : i ≠ .evtConvDone cI cV := by
  rintro rfl
  have := decodeEvent_ok h
  simp [hr] at this

theorem TurnEffect.keeps_handedOver {turn : Turn} (h : TurnEffect turn s t)
    (hk : keepsRaw turn = true) (hs : handedOver codeI codeV s) : handedOver codeI codeV t := by
  cases h with
  | command _ _ i hc _ _ _ h =>
    refine h.keeps_handedOver (fun cI cV hi => ?_) hs
    simp [hi, Instr.isCommand] at hc
  | event _ _ r i hd h =>
    exact h.keeps_handedOver (decodeEvent_ne_convDone hd (by simpa [keepsRaw] using hk)) hs
  | reset => cases hk
  | _ => exact hs

theorem step_keeps_handedOver (h : step s = .next t)
    (hk : ∀ turn ∈ s.schedule.take 1, keepsRaw turn = true) (hs : handedOver codeI codeV s) :
    handedOver codeI codeV t := by
  obtain ⟨_, rfl⟩ | ⟨turn, hturn, h⟩ := step_effect h
  · exact hs
  · exact h.keeps_handedOver (hk turn (by simp [List.take_one, hturn])) hs

theorem runSteps_keeps_handedOver {k : Nat} (h : runSteps k s = .next t)
    (hk : ∀ turn ∈ s.schedule.take k, keepsRaw turn = true) (hs : handedOver codeI codeV s) :
    handedOver codeI codeV t := by
  induction k generalizing s with
  | zero => cases h; exact hs
  | succ k ih =>
    obtain ⟨u, hu, ht⟩ := runSteps_succ_next h
    rw [Nat.add_comm, List.take_add, List.drop_one, ← step_schedule hu] at hk
    exact ih ht (fun turn hm => hk turn (List.mem_append_right _ hm))
      (step_keeps_handedOver hu (fun turn hm => hk turn (List.mem_append_left _ hm)) hs)

end

/-- Settles O58: the completion's step establishes `handedOver`, every later turn keeps it, and a CONSUME
that finds READY = 1 copies RAW, which holds the codes. -/
theorem latestCompletionIsHandedOver : Obligations.LatestCompletionIsHandedOver := by
  intro k s t codeI codeV rest hh hb hs hk h
  obtain ⟨u, hu, ht⟩ := runSteps_succ_next h
  have hrest : u.schedule = rest := by rw [step_schedule hu, hs, List.tail_cons]
  have hover : handedOver codeI codeV t :=
    runSteps_keeps_handedOver ht (hrest ▸ hk) (step_convDone_handedOver hh hb hs hu)
  refine ⟨hover, fun hact hr => ?_⟩
  obtain ⟨hI, hV, _⟩ := hover
  exact ⟨_, exec_consume_ready hact hr, hI, hV, rfl⟩

end Sys2Proof.Machine
end

section
/-! PROOFS. Encoding (30_encoding.md): the decoder and the encoder undo each other, and which words and
records are legal. -/

namespace Sys2Proof

/-! ### Decode after encode -/

theorem decodeCommand_commandWord (frameLen : Nat) (op : Byte) (imm : Code) :
    decodeCommand frameLen (commandWord op imm) = decodeFields frameLen 0x00#8 op.toNat imm := by
  rw [decodeCommand, rsvField_commandWord, opField_commandWord, immField_commandWord]

theorem decode_encode {frameLen : Nat} {i : Instr} (hf : i.wellFormed frameLen = true) :
    decode frameLen (encode i) = .ok i := by
  cases i with
  | crcSpan n => exact (decodeCommand_commandWord _ _ _).trans (if_pos (of_decide_eq_true hf))
  | evtConvDone codeI codeV => exact Machine.decodeEvent_convDoneRecord codeI codeV
  | evtTrig | evtByteReady | evtTxTake | evtFault => rfl
  | _ => exact decodeCommand_commandWord _ _ _

/-- Settles O34: each row's word splits into the fields it was made of, and they lead back to the row. -/
theorem decodeOfEncodeIsTheInstruction : Obligations.DecodeOfEncodeIsTheInstruction :=
  fun _ _ => decode_encode

/-! ### Encode after decode -/

theorem commandWord_of_fields {w : Word} {op : Nat} {imm : Code} (hr : rsvField w = 0x00#8)
    (ho : (opField w).toNat = op) (hi : immField w = imm) :
    commandWord (BitVec.ofNat 8 op) imm = w := by
  rw [← ho, BitVec.ofNat_toNat, BitVec.setWidth_eq, ← hi, commandWord_fields hr]

theorem encode_of_decodeCommand {frameLen : Nat} {w : Word} {i : Instr}
    (h : decodeCommand frameLen w = .ok i) : encode i = .command w := by
  obtain ⟨hr, h⟩ := decodeCommand_ok h
  have hw {op : Nat} {imm : Code} (ho : (opField w).toNat = op) (hi : immField w = imm) :
      Encoded.command (commandWord (BitVec.ofNat 8 op) imm) = .command w :=
    congrArg Encoded.command (commandWord_of_fields hr ho hi)
  obtain ⟨rfl, ho, hi⟩ | ⟨rfl, ho, hi⟩ | ⟨rfl, ho, hi⟩ | ⟨rfl, ho, hi⟩ | ⟨rfl, ho⟩ | ⟨rfl, ho⟩ |
    ⟨rfl, ho, hi⟩ | ⟨rfl, ho, hi⟩ | ⟨rfl, ho, _⟩ | ⟨rfl, ho, hi⟩ := h
  · exact hw ho hi
  · exact hw ho hi
  · exact hw ho hi
  · exact hw ho hi
  · exact hw ho rfl
  · exact hw ho rfl
  · exact hw ho hi
  · exact hw ho hi
  · exact hw ho rfl
  · exact hw ho hi

theorem payload_of_codes (p : Word) : (codeVField p ++ codeIField p : Word) = p := halves_of_word p

theorem encode_of_decodeEvent {r : EventRecord} {i : Instr} (h : decodeEvent r = .ok i) :
    encode i = .event r := by
  obtain ⟨rfl, rfl⟩ | ⟨rfl, hev⟩ | ⟨rfl, rfl⟩ | ⟨rfl, rfl⟩ | ⟨rfl, rfl⟩ := decodeEvent_ok h
  case inr.inl => rw [encode, payload_of_codes, ← hev]
  all_goals rfl

theorem decodeEvent_wellFormed {r : EventRecord} {i : Instr} (h : decodeEvent r = .ok i)
    (frameLen : Nat) : i.wellFormed frameLen = true := by
  obtain ⟨rfl, _⟩ | ⟨rfl, _⟩ | ⟨rfl, _⟩ | ⟨rfl, _⟩ | ⟨rfl, _⟩ := decodeEvent_ok h <;> rfl

/-- Settles O35: an accepted word or record is the encoding of its row with its own operand fields. -/
theorem decodedEncodingsAreCanonical : Obligations.DecodedEncodingsAreCanonical := by
  intro frameLen e i h
  cases e with
  | command w => exact ⟨encode_of_decodeCommand h, decodeCommand_wellFormed h⟩
  | event r => exact ⟨encode_of_decodeEvent h, decodeEvent_wellFormed h frameLen⟩

/-! ### The legal words, by their fields -/

/-- R73, R75: the fields of a legal word. -/
def LegalFields (frameLen : Nat) (rsv : Byte) (op : Nat) (imm : Code) : Prop :=
  rsv = 0x00#8 ∧
    ((op ∈ [0x00, 0x01, 0x02, 0x03, 0x06, 0x07, 0x09] ∧ imm = 0#16) ∨ op = 0x04 ∨ op = 0x05 ∨
      (op = 0x08 ∧ imm.toNat ≤ frameLen))

theorem decodeCommand_isOk_iff (frameLen : Nat) (w : Word) :
    (∃ i, decodeCommand frameLen w = .ok i) ↔
      LegalFields frameLen (rsvField w) (opField w).toNat (immField w) := by
  constructor
  · rintro ⟨i, h⟩
    obtain ⟨hr, h⟩ := decodeCommand_ok h
    refine ⟨hr, ?_⟩
    simp only [List.mem_cons, List.not_mem_nil, or_false]
    tauto
  · rintro ⟨hr, h⟩
    rw [decodeCommand, hr]
    obtain ⟨ho, hi⟩ | ho | ho | ⟨ho, hn⟩ := h
    · simp only [List.mem_cons, List.not_mem_nil, or_false] at ho
      obtain ho | ho | ho | ho | ho | ho | ho := ho <;> (rw [ho, hi]; exact ⟨_, rfl⟩)
    · rw [ho]; exact ⟨_, rfl⟩
    · rw [ho]; exact ⟨_, rfl⟩
    · rw [ho]; exact ⟨_, if_pos hn⟩

theorem not_legalFields_iff (frameLen : Nat) (rsv op : Byte) (imm : Code) :
    ¬ LegalFields frameLen rsv op.toNat imm ↔
      rsv ≠ 0#8 ∨ 0x0A ≤ op.toNat ∨
        (op.toNat ∈ [0x00, 0x01, 0x02, 0x03, 0x06, 0x07, 0x09] ∧ imm ≠ 0#16) ∨
        (op = 0x08#8 ∧ frameLen < imm.toNat) := by
  simp only [LegalFields, ← BitVec.toNat_inj, List.mem_cons, List.not_mem_nil, or_false,
    BitVec.toNat_ofNat, ne_eq]
  omega

theorem except_isError_iff {ε α : Type} (x : Except ε α) : (∃ e, x = .error e) ↔ ¬ ∃ a, x = .ok a := by
  cases x <;> simp

/-- Settles O37: a word the decoder does not accept is an error, and the four conditions together are the
negation of `LegalFields`. -/
theorem illegalWordsAreExactlyTheListed : Obligations.IllegalWordsAreExactlyTheListed := by
  intro frameLen w
  rw [except_isError_iff, decodeCommand_isOk_iff]
  exact not_legalFields_iff _ _ _ _

/-! ### The legal words, by the rows of the table -/

theorem toNat_and_lowHalf (w : Word) : (w &&& 0x0000FFFF#32).toNat = w.toNat % 2 ^ 16 := by
  rw [BitVec.toNat_and]
  exact Nat.and_two_pow_sub_one_eq_mod _ 16

theorem and_lowHalf_eq_iff (w : Word) {op : Nat} (hop : op < 256) :
    w &&& 0x0000FFFF#32 = BitVec.ofNat 32 op ↔ rsvField w = 0x00#8 ∧ (opField w).toNat = op := by
  simp only [rsvField, opField, ← BitVec.toNat_inj, toNat_and_lowHalf, BitVec.extractLsb'_toNat,
    BitVec.toNat_ofNat, Nat.shiftRight_eq_div_pow]
  omega

theorem word_eq_iff (w : Word) {op : Nat} (hop : op < 256) :
    w = BitVec.ofNat 32 op ↔ rsvField w = 0x00#8 ∧ (opField w).toNat = op ∧ immField w = 0#16 := by
  simp only [rsvField, opField, immField, ← BitVec.toNat_inj, BitVec.extractLsb'_toNat,
    BitVec.toNat_ofNat, Nat.shiftRight_eq_div_pow]
  omega

theorem mem_map_ofNat_iff (w : Word) {ops : List Nat} (hops : ∀ op ∈ ops, op < 256) :
    w ∈ ops.map (BitVec.ofNat 32) ↔
      rsvField w = 0x00#8 ∧ (opField w).toNat ∈ ops ∧ immField w = 0#16 := by
  rw [List.mem_map]
  constructor
  · rintro ⟨op, hop, h⟩
    obtain ⟨hr, rfl, hi⟩ := (word_eq_iff w (hops op hop)).mp h.symm
    exact ⟨hr, hop, hi⟩
  · rintro ⟨hr, hop, hi⟩
    exact ⟨_, hop, ((word_eq_iff w (hops _ hop)).mpr ⟨hr, rfl, hi⟩).symm⟩

/-- R73: the words of the table, written out. -/
def TableWord (frameLen : Nat) (w : Word) : Prop :=
  w ∈ [0x00000000#32, 0x00000001#32, 0x00000002#32, 0x00000003#32, 0x00000006#32, 0x00000007#32,
    0x00000009#32] ∨
  w &&& 0x0000FFFF#32 = 0x00000004#32 ∨ w &&& 0x0000FFFF#32 = 0x00000005#32 ∨
  (w &&& 0x0000FFFF#32 = 0x00000008#32 ∧ (immField w).toNat ≤ frameLen)

theorem legalFields_iff_tableWord (frameLen : Nat) (w : Word) :
    LegalFields frameLen (rsvField w) (opField w).toNat (immField w) ↔ TableWord frameLen w := by
  have hfull := mem_map_ofNat_iff w (ops := [0x00, 0x01, 0x02, 0x03, 0x06, 0x07, 0x09]) (by decide)
  rw [TableWord, and_lowHalf_eq_iff w (op := 4) (by decide), and_lowHalf_eq_iff w (op := 5) (by decide),
    and_lowHalf_eq_iff w (op := 8) (by decide), LegalFields]
  refine Iff.trans ?_ (or_congr hfull.symm Iff.rfl)
  tauto

theorem toNat_immField (w : Word) : (immField w).toNat = w.toNat >>> 16 := by
  rw [immField, BitVec.extractLsb'_toNat, Nat.shiftRight_eq_div_pow]
  omega

theorem rowAccepts_iff (row : OpcodeRow) (frameLen : Nat) (w : Word) :
    row.accepts frameLen w = true ↔
      w &&& row.mask = row.pattern ∧ (row.spanRow = true → (immField w).toNat ≤ frameLen) := by
  cases h : row.spanRow <;> simp [OpcodeRow.accepts, h, toNat_immField]

theorem and_fullMask (w : Word) : w &&& 0xFFFFFFFF#32 = w := BitVec.and_allOnes

theorem exists_row_accepts_iff (frameLen : Nat) (w : Word) :
    (∃ row ∈ opcodeRows, row.accepts frameLen w = true) ↔ TableWord frameLen w := by
  simp only [opcodeRows, List.exists_mem_cons_iff, rowAccepts_iff, and_fullMask]
  simp only [TableWord, List.mem_cons, List.not_mem_nil, Bool.false_eq_true, false_imp_iff, and_true,
    true_imp_iff, false_and, exists_false, or_false]
  tauto

/-- R73: every row's mask covers OP and RSV, and its pattern has IMM16 = 0. -/
theorem opcodeRows_cover_lowHalf : ∀ row ∈ opcodeRows,
    row.mask &&& 0x0000FFFF#32 = 0x0000FFFF#32 ∧ row.pattern &&& 0x0000FFFF#32 = row.pattern := by
  decide

theorem pattern_of_row_match {row : OpcodeRow} (hrow : row ∈ opcodeRows) {w : Word}
    (h : w &&& row.mask = row.pattern) : row.pattern = w &&& 0x0000FFFF#32 := by
  obtain ⟨hmask, hpattern⟩ := opcodeRows_cover_lowHalf row hrow
  rw [← hpattern, ← h, BitVec.and_assoc, hmask]

theorem opcodeRows_patterns_nodup : (opcodeRows.map OpcodeRow.pattern).Nodup := by decide

theorem matching_rows_length_le_one (w : Word) :
    (opcodeRows.filter fun row => w &&& row.mask == row.pattern).length ≤ 1 :=
  calc (opcodeRows.filter fun row => w &&& row.mask == row.pattern).length
    _ = opcodeRows.countP fun row => w &&& row.mask == row.pattern :=
        List.countP_eq_length_filter.symm
    _ ≤ opcodeRows.countP fun row => row.pattern == w &&& 0x0000FFFF#32 :=
        List.countP_mono_left fun _ hrow h =>
          beq_iff_eq.mpr (pattern_of_row_match hrow (beq_iff_eq.mp h))
    _ = (opcodeRows.map OpcodeRow.pattern).count (w &&& 0x0000FFFF#32) := by
        rw [List.count, List.countP_map]
        rfl
    _ ≤ 1 := List.nodup_iff_count_le_one.mp opcodeRows_patterns_nodup _

theorem decodeCommand_isOk_iff_tableWord (frameLen : Nat) (w : Word) :
    (∃ i, decodeCommand frameLen w = .ok i) ↔ TableWord frameLen w :=
  (decodeCommand_isOk_iff frameLen w).trans (legalFields_iff_tableWord frameLen w)

/-- Settles O36: the written-out words and the rows are both `TableWord`; the rows' patterns differ in
the half that every mask covers. -/
theorem legalWordsAreTheTableRows : Obligations.LegalWordsAreTheTableRows :=
  ⟨decodeCommand_isOk_iff_tableWord,
    fun frameLen w => (decodeCommand_isOk_iff_tableWord frameLen w).trans
      (exists_row_accepts_iff frameLen w).symm,
    matching_rows_length_le_one⟩

/-- Settles O38: the decoder runs on each word. -/
theorem writtenWordsDecode : Obligations.WrittenWordsDecode := by
  unfold Obligations.WrittenWordsDecode
  decide

end Sys2Proof
end

section
/-! PROOFS. Encoding (30_encoding.md): what a step does with a word or a record, and the words of the
assembler. -/

namespace Sys2Proof.Machine

/-! ### Steps of decoded instructions -/

/-- No guard reads the inputs still to come. -/
theorem enabled_inputs (i : Instr) (s : State) (accesses : List Access) (pos : Nat)
    (turns : List Turn) :
    enabled i { s with program := accesses, progPos := pos, schedule := turns } = enabled i s := by
  cases i <;> rfl

theorem whenEnabled_unlessHalted_of_halted {s : State} (hh : s.halted = true) (i : Instr)
    (f : State → Outcome) : whenEnabled i s (fun s => unlessHalted s f) = .next s := by
  simp only [whenEnabled, unlessHalted, hh, if_true, ite_self]

/-- 60_exceptions.md R215, for the commands. -/
theorem exec_command_of_halted {i : Instr} {s : State} (hc : i.isCommand = true)
    (hh : s.halted = true) : exec i s = .next s := by
  cases i with
  | nop => exact ite_self _
  | evtTrig | evtConvDone _ _ | evtByteReady | evtTxTake | evtFault => cases hc
  | _ => exact whenEnabled_unlessHalted_of_halted hh _ _

theorem commandWrite_of_enabled {w : Word} {i : Instr} {s : State}
    (hd : decodeCommand s.cfg.frameLen w = .ok i) (he : enabled i s = true) :
    commandWrite w s = exec i (nextAccess s) := by
  unfold commandWrite
  split
  · next hh => exact (exec_command_of_halted (s := nextAccess s) (decodeCommand_isCommand hd) hh).symm
  · simp only [hd, he, if_true]

theorem step_of_command {s : State} {rest : List Turn} {w : Word} {i : Instr}
    (hs : s.schedule = .consumer :: rest) (hw : s.waiting = false)
    (ha : s.program[s.progPos]? = some (.write 0#6 w))
    (hd : decodeCommand s.cfg.frameLen w = .ok i) (he : enabled i s = true) :
    step s = exec i { s with schedule := rest, progPos := s.progPos + 1 } := by
  rw [step_of_access hs hw ha]
  exact commandWrite_of_enabled (s := { s with schedule := rest }) hd
    ((enabled_inputs i s s.program s.progPos rest).trans he)

/-- Settles O23: the turn is dropped, the access moves the position on, and the decoder picks the arm. -/
theorem stepRunsTheDecodedInstruction : Obligations.StepRunsTheDecodedInstruction :=
  ⟨fun _ _ _ _ => step_of_command, fun _ _ _ _ => step_of_event⟩

/-! ### Placed instructions -/

theorem getElem?_inserted {α : Type} (l : List α) (n : Nat) (a : α) :
    (l.take n ++ a :: l.drop n)[(l.take n).length]? = some a := by
  rw [List.getElem?_append_right (Nat.le_refl _), Nat.sub_self, List.getElem?_cons_zero]

theorem step_placeNext_command {s : State} {w : Word} {i : Instr}
    (hd : decodeCommand s.cfg.frameLen w = .ok i)
    (he : enabled i { s with waiting := false } = true) :
    step (placeNext (.command w) s) =
      exec i { s with
        program := s.program.take s.progPos ++ .write 0#6 w :: s.program.drop s.progPos
        progPos := (s.program.take s.progPos).length + 1
        waiting := false } :=
  step_of_command (s := placeNext (.command w) s) rfl rfl (getElem?_inserted _ _ _) hd
    ((enabled_inputs i { s with waiting := false } _ _ _).trans he)

/-- Settles O24: the encoding decodes to the instruction, and the step of its word or record runs it. -/
theorem placedInstructionRunsNext : Obligations.PlacedInstructionRunsNext := by
  intro s i hf he
  have hd := decode_encode hf
  cases hi : encode i with
  | command w =>
    rw [hi] at hd
    refine ⟨_, step_placeNext_command hd he, ?_, rfl, rfl⟩
    rw [decodeCommand_isCommand hd]
    rfl
  | event r =>
    rw [hi] at hd
    refine ⟨s, step_of_event (s := placeNext (.event r) s) rfl hd, ?_, rfl, rfl⟩
    rw [decodeEvent_isEvent hd]
    rfl

/-! ### Illegal words and refused records -/

theorem raise_illegalCommand (s : State) : raise .illegalCommand s = { s with errIllegal := true } := by
  simp [raise]

theorem commandWrite_of_error {w : Word} {e : DecodeError} {s : State} (hh : s.halted = false)
    (hd : decodeCommand s.cfg.frameLen w = .error e) :
    commandWrite w s = .next (raise .illegalCommand (nextAccess s)) := by
  simp only [commandWrite, hh, hd, Bool.false_eq_true, if_false]

/-- Settles O25: by R75 the decoder refuses the word, and the refusal raises IllegalCommand. -/
theorem illegalWordSetsOnlyErrIllegal : Obligations.IllegalWordSetsOnlyErrIllegal := by
  rintro s rest w hs ⟨hw, hh⟩ ha hillegal
  obtain ⟨e, hd⟩ := (illegalWordsAreExactlyTheListed s.cfg.frameLen w).mpr hillegal
  rw [step_of_access hs hw ha]
  refine (commandWrite_of_error (s := { s with schedule := rest }) hh hd).trans ?_
  rw [raise_illegalCommand]
  rfl

theorem decodeEvent_unknownEvent {r : EventRecord} (h : r.ev.toNat ∉ [1, 2, 3, 4, 5]) :
    decodeEvent r = .error .unknownEvent := by
  simp only [List.mem_cons, List.not_mem_nil, or_false, not_or] at h
  unfold decodeEvent
  split
  case h_6 => rfl
  all_goals omega

theorem decodeEvent_payloadNotZero {r : EventRecord} (h : r.ev.toNat ∈ [1, 3, 4, 5])
    (hp : r.payload ≠ 0#32) : decodeEvent r = .error .payloadNotZero := by
  have hno (i : Instr) : noPayload r i = .error .payloadNotZero := if_neg hp
  simp only [List.mem_cons, List.not_mem_nil, or_false] at h
  obtain hev | hev | hev | hev := h <;> (rw [decodeEvent, hev]; exact hno _)

theorem step_of_refusedEvent {s : State} {rest : List Turn} {r : EventRecord} {e : DecodeError}
    (hs : s.schedule = .event r :: rest) (hd : decodeEvent r = .error e) :
    step s = .refused (refuseRecord r e) := by
  rw [step_of_cons hs]
  simp only [takeTurn, eventTurn, hd]

/-- Settles O39: the five records decode, and a decoder's error becomes the refusal of the turn. -/
theorem eventRecordsDecodeOrAreRefused : Obligations.EventRecordsDecodeOrAreRefused :=
  ⟨rfl, decodeEvent_convDoneRecord, rfl, rfl, rfl, fun _ _ _ hs =>
    ⟨fun hev => step_of_refusedEvent hs (decodeEvent_unknownEvent hev),
      fun hev hp => step_of_refusedEvent hs (decodeEvent_payloadNotZero hev hp)⟩⟩

/-! ### The assembler -/

/-- A command word of the item decodes to an instruction. -/
def LegalItem (frameLen : Nat) (item : TraceItem) : Prop :=
  ∀ w, item = .command w → ∃ i, decodeCommand frameLen w = .ok i

theorem traceItem_legal {frameLen : Nat} {i : Instr} (hf : i.wellFormed frameLen = true) :
    LegalItem frameLen (traceItem i) := by
  intro w hw
  have hd := decode_encode hf
  unfold traceItem at hw
  split at hw
  · next v he =>
    cases hw
    rw [he] at hd
    exact ⟨i, hd⟩
  · cases hw

theorem wellFormed_mono {m n : Nat} (hmn : m ≤ n) {i : Instr} (h : i.wellFormed m = true) :
    i.wellFormed n = true := by
  cases i with
  | crcSpan k => exact decide_eq_true ((of_decide_eq_true h).trans hmn)
  | _ => rfl

theorem except_bind_ok {ε α β : Type} {x : Except ε α} {f : α → Except ε β} {b : β}
    (h : x.bind f = .ok b) : ∃ a, x = .ok a ∧ f a = .ok b := by
  cases x with
  | error e => cases h
  | ok a => exact ⟨a, rfl, h⟩

theorem except_map_ok {ε α β : Type} {x : Except ε α} {f : α → β} {b : β}
    (h : x.map f = .ok b) : ∃ a, x = .ok a ∧ f a = b := by
  cases x with
  | error e => cases h
  | ok a => cases h; exact ⟨a, rfl, rfl⟩

theorem immCommand_legal {frameLen : Nat} {make : Code → Instr} {rest : List (List Char)}
    {items : List TraceItem} (h : immCommand frameLen make rest = .ok items) :
    ∀ item ∈ items, LegalItem frameLen item := by
  unfold immCommand at h
  split at h
  · cases h
  · obtain ⟨v, _, h⟩ := except_bind_ok h
    split at h
    · next hf => cases h; exact List.forall_mem_singleton.mpr (traceItem_legal hf)
    · cases h
  · cases h

theorem plainCommands_wellFormed :
    ∀ p ∈ plainCommands, ∀ i ∈ p.2, i.wellFormed 6 = true := by
  simp [plainCommands, Pseudo.expand, Instr.wellFormed]

theorem plainEvents_legal (frameLen : Nat) : ∀ p ∈ plainEvents, LegalItem frameLen p.2 := by
  simp [plainEvents, LegalItem]

theorem mem_of_lookup_eq_some {α β : Type} [BEq α] [LawfulBEq α] {l : List (α × β)} {k : α} {b : β}
    (h : l.lookup k = some b) : (k, b) ∈ l := by
  obtain ⟨l₁, l₂, rfl, _⟩ := List.lookup_eq_some_iff.mp h
  exact List.mem_append_right _ List.mem_cons_self

theorem plainLine_legal {frameLen : Nat} (hlen : 6 ≤ frameLen) {name : List Char}
    {is : List Instr} (h : plainCommands.lookup name = some is) :
    ∀ item ∈ is.map traceItem, LegalItem frameLen item := by
  rw [List.forall_mem_map]
  intro i hi
  exact traceItem_legal
    (wellFormed_mono hlen (plainCommands_wellFormed _ (mem_of_lookup_eq_some h) i hi))

theorem assembleWords_legal {frameLen : Nat} (hlen : 6 ≤ frameLen) {words : List (List Char)}
    {items : List TraceItem} (h : assembleWords frameLen words = .ok items)
    (hword : words.head? ≠ some ".word".toList) : ∀ item ∈ items, LegalItem frameLen item := by
  unfold assembleWords at h
  split at h
  · cases h; exact List.forall_mem_nil _
  split at h
  case isTrue => exact immCommand_legal h
  split at h
  case isTrue => exact immCommand_legal h
  split at h
  case isTrue => exact immCommand_legal h
  split at h
  case isTrue hname => exact absurd (congrArg some (beq_iff_eq.mp hname)) hword
  split at h
  · split at h
    · obtain ⟨ci, _, h⟩ := except_bind_ok h
      obtain ⟨cv, _, rfl⟩ := except_map_ok h
      exact List.forall_mem_singleton.mpr (traceItem_legal rfl)
    all_goals cases h
  split at h
  · next hlookup =>
    split at h
    · cases h; exact plainLine_legal hlen hlookup
    · cases h
  · next hlookup =>
    split at h
    · cases h
      exact List.forall_mem_singleton.mpr
        (plainEvents_legal frameLen _ (mem_of_lookup_eq_some hlookup))
    · cases h
  · cases h

/-- Settles O40: every mnemonic's branch gives items that encode well-formed instructions. -/
theorem assemblerProducesLegalWords : Obligations.AssemblerProducesLegalWords :=
  fun c _ _ w h hword hmem => assembleWords_legal c.six_le_frameLen h hword _ hmem w rfl

/-- Settles O41: the assembler runs on each line; a pseudo-instruction's words do not depend on FRAME_LEN. -/
theorem pseudoInstructionsExpand : Obligations.PseudoInstructionsExpand :=
  fun _ => ⟨rfl, rfl, rfl⟩

end Sys2Proof.Machine
end

section
/-! PROOFS. The unit converter (40_converter.md): what the four conversions do, and the arithmetic of the
two stages. -/

namespace Sys2Proof.Machine

/-! ### Guarded commands -/

/-- 44_handoff.md R181: START_SEND alone has a guard besides WAITING = 0. -/
theorem enabled_command_iff {i : Instr} (hc : i.isCommand = true) (hne : i ≠ .startSend) (s : State) :
    enabled i s = true ↔ s.waiting = false := by
  cases i with
  | startSend => exact absurd rfl hne
  | evtTrig | evtConvDone _ _ | evtByteReady | evtTxTake | evtFault => cases hc
  | _ => exact iff_of_eq (Bool.not_eq_true' _)

theorem enabled_command_of_mayAct {i : Instr} {s : State} (hc : i.isCommand = true)
    (hne : i ≠ .startSend) (hact : mayAct s) : enabled i s = true :=
  (enabled_command_iff hc hne s).mpr hact.1

theorem enabled_command_of_waiting {i : Instr} {s : State} (hc : i.isCommand = true)
    (hw : s.waiting = true) : enabled i s = false := by
  cases i with
  | evtTrig | evtConvDone _ _ | evtByteReady | evtTxTake | evtFault => cases hc
  | _ => simp [enabled, hw]

theorem whenEnabled_unlessHalted_of_blocked {i : Instr} {s : State} (hc : i.isCommand = true)
    (hb : blocked s) (f : State → Outcome) :
    whenEnabled i s (fun s => unlessHalted s f) = .next s := by
  obtain hw | hh := hb
  · simp only [whenEnabled, enabled_command_of_waiting hc hw, Bool.false_eq_true, if_false]
  · exact whenEnabled_unlessHalted_of_halted hh i f

/-- 44_handoff.md R181, 60_exceptions.md R215. -/
theorem exec_command_of_blocked {i : Instr} {s : State} (hc : i.isCommand = true) (hb : blocked s) :
    exec i s = .next s := by
  cases i with
  | nop => exact ite_self _
  | evtTrig | evtConvDone _ _ | evtByteReady | evtTxTake | evtFault => cases hc
  | _ => exact whenEnabled_unlessHalted_of_blocked hc hb _

theorem whenEnabled_unlessHalted_of_mayAct {i : Instr} {s : State} (hact : mayAct s)
    (he : enabled i s = true) (f : State → Outcome) :
    whenEnabled i s (fun s => unlessHalted s f) = f s := by
  obtain ⟨_, hh⟩ := hact
  simp only [whenEnabled, he, unlessHalted, hh, Bool.false_eq_true, if_true, if_false]

/-! ### What the conversions do -/

section
variable {s : State} (hact : mayAct s)
include hact

theorem exec_convI_of_mayAct : exec .convI s = .next (setCurrent s.sampleI s) :=
  whenEnabled_unlessHalted_of_mayAct (i := .convI) hact (enabled_command_of_mayAct rfl nofun hact) _

theorem exec_convV_of_mayAct : exec .convV s = .next (setVoltage s.sampleV s) :=
  whenEnabled_unlessHalted_of_mayAct (i := .convV) hact (enabled_command_of_mayAct rfl nofun hact) _

theorem exec_convIImm_of_mayAct (code : Code) :
    exec (.convIImm code) s = .next (setCurrent code s) :=
  whenEnabled_unlessHalted_of_mayAct (i := .convIImm code) hact
    (enabled_command_of_mayAct rfl nofun hact) _

theorem exec_convVImm_of_mayAct (code : Code) :
    exec (.convVImm code) s = .next (setVoltage code s) :=
  whenEnabled_unlessHalted_of_mayAct (i := .convVImm code) hact
    (enabled_command_of_mayAct rfl nofun hact) _

end

/-- Settles O3: blocked, neither conversion has an effect; otherwise the effect is `setCurrent` or
`setVoltage` of the latched sample. -/
theorem latchedConversionsWriteTwoStageFloor : Obligations.LatchedConversionsWriteTwoStageFloor :=
  ⟨⟨rfl, rfl⟩, fun s =>
    ⟨⟨enabled_command_iff (i := .convI) rfl nofun s, enabled_command_iff (i := .convV) rfl nofun s⟩,
      fun hb => ⟨exec_command_of_blocked rfl hb, exec_command_of_blocked rfl hb⟩,
      fun hact => ⟨exec_convI_of_mayAct hact, exec_convV_of_mayAct hact⟩⟩⟩

/-- Settles O4: as for the latched samples, with `setCurrent` and `setVoltage` of the immediate. -/
theorem immediateConversionsWriteTwoStageFloor : Obligations.ImmediateConversionsWriteTwoStageFloor :=
  fun s code =>
    ⟨⟨rfl, rfl⟩,
      ⟨enabled_command_iff (i := .convIImm code) rfl nofun s,
        enabled_command_iff (i := .convVImm code) rfl nofun s⟩,
      fun hb => ⟨exec_command_of_blocked rfl hb, exec_command_of_blocked rfl hb⟩,
      fun hact => ⟨exec_convIImm_of_mayAct hact code, exec_convVImm_of_mayAct hact code⟩⟩

/-! ### No result is truncated -/

theorem rawToCurrent_lt (c : Config) (code : Code) : rawToCurrent c code < 2 ^ 32 := by
  obtain ⟨_, _, _, _, hmax, _⟩ := c.toParams.legal_iff.mp c.legal
  exact (maxMillivolts_fits_iff _ _ _ _).mp hmax code.toNat (Nat.le_of_lt_succ code.isLt)

theorem rawToVoltage_lt (c : Config) (code : Code) : rawToVoltage c code < 2 ^ 32 := by
  obtain ⟨_, _, _, _, _, hmax⟩ := c.toParams.legal_iff.mp c.legal
  exact (maxMillivolts_fits_iff _ _ _ _).mp hmax code.toNat (Nat.le_of_lt_succ code.isLt)

theorem toNat_setCurrent_curUa (code : Code) (s : State) :
    (setCurrent code s).curUa.toNat = rawToCurrent s.cfg code :=
  Nat.mod_eq_of_lt (rawToCurrent_lt s.cfg code)

theorem toNat_setVoltage_voltMv (code : Code) (s : State) :
    (setVoltage code s).voltMv.toNat = rawToVoltage s.cfg code :=
  Nat.mod_eq_of_lt (rawToVoltage_lt s.cfg code)

/-- Settles O5: a legal configuration bounds the result of the largest code by 2^32, and monotonicity
carries the bound to every code. -/
theorem convertedRegistersHoldExactResults : Obligations.ConvertedRegistersHoldExactResults :=
  fun s code hact =>
    ⟨⟨_, exec_convIImm_of_mayAct hact code, toNat_setCurrent_curUa code s⟩,
      ⟨_, exec_convVImm_of_mayAct hact code, toNat_setVoltage_voltMv code s⟩⟩

/-! ### The laws of the two stages -/

/-- 40_converter.md R109: the floor between the stages can only lose. -/
theorem twoStage_le_singleStage (x full num den : Nat) :
    (x / full) * num / den ≤ x * num / (full * den) :=
  calc (x / full) * num / den
    _ ≤ x * num / full / den := by
        rw [Nat.mul_comm (x / full), Nat.mul_comm x]
        exact Nat.div_le_div_right (Nat.mul_div_le_mul_div_assoc num x full)
    _ = x * num / (full * den) := Nat.div_div_eq_div_mul _ _ _

theorem rawToCurrent_mono (c : Config) {a b : Code} (h : a.toNat ≤ b.toNat) :
    rawToCurrent c a ≤ rawToCurrent c b := twoStage_mono h _ _ _ _

theorem rawToVoltage_mono (c : Config) {a b : Code} (h : a.toNat ≤ b.toNat) :
    rawToVoltage c a ≤ rawToVoltage c b := twoStage_mono h _ _ _ _

@[simp] theorem stageOne_zero (c : Config) : stageOne c 0#16 = 0 := by simp [stageOne]

theorem rawToCurrent_zero (c : Config) : rawToCurrent c 0#16 = 0 := by simp [rawToCurrent]

theorem rawToVoltage_zero (c : Config) : rawToVoltage c 0#16 = 0 := by simp [rawToVoltage]

theorem curUa_congr {s t : State} (hc : s.cfg = t.cfg) (hI : s.sampleI = t.sampleI) :
    (setCurrent s.sampleI s).curUa = (setCurrent t.sampleI t).curUa := by
  rw [setCurrent_curUa, setCurrent_curUa, hc, hI]

theorem voltMv_congr {s t : State} (hc : s.cfg = t.cfg) (hV : s.sampleV = t.sampleV) :
    (setVoltage s.sampleV s).voltMv = (setVoltage t.sampleV t).voltMv := by
  rw [setVoltage_voltMv, setVoltage_voltMv, hc, hV]

/-- Settles O6: the laws one by one; at full scale and at code 1 the numbers are computed. -/
theorem converterLaws : Obligations.ConverterLaws := by
  refine ⟨?determinism, fun c _ _ h => ⟨rawToCurrent_mono c h, rawToVoltage_mono c h⟩,
    fun c => ⟨rawToCurrent_zero c, rawToVoltage_zero c⟩,
    fun _ _ => ⟨rfl, twoStage_le_singleStage _ _ _ _, twoStage_le_singleStage _ _ _ _⟩,
    ?codeOne, ?fullScale⟩
  case determinism =>
    intro s t hc hI hV hs ht
    exact ⟨_, _, _, _, exec_convI_of_mayAct hs, exec_convI_of_mayAct ht, curUa_congr hc hI,
      exec_convV_of_mayAct hs, exec_convV_of_mayAct ht, voltMv_congr hc hV⟩
  case codeOne =>
    intro c hv hf hn hd
    simp only [rawToCurrent, stageOne, hv, hf, hn, hd]
    decide
  case fullScale =>
    intro c hv hf
    simp only [stageOne, hv, hf]
    decide

end Sys2Proof.Machine
end

section
/-! PROOFS. The checksum generator (41_checksum.md): crc8 as a linear map of its span, one to one in every
byte, and what CRC_SPAN gives on a frame of BUILD. -/

namespace Sys2Proof.Machine

/-! ### One shift -/

/-- 41_checksum.md R120: the polynomial is XORed in exactly when bit 7 was set. -/
theorem crcShift_eq (c : Byte) : crcShift c = (c <<< 1) ^^^ (if c.msb then crcPoly else 0#8) := by
  unfold crcShift
  split
  · rfl
  · exact BitVec.xor_zero.symm

theorem crcShift_xor (a b : Byte) : crcShift (a ^^^ b) = crcShift a ^^^ crcShift b := by
  have hpoly : (if (a ^^^ b).msb then crcPoly else 0#8) =
      (if a.msb then crcPoly else 0#8) ^^^ (if b.msb then crcPoly else 0#8) := by
    rw [BitVec.msb_xor]
    cases a.msb <;> cases b.msb <;> decide
  rw [crcShift_eq, crcShift_eq a, crcShift_eq b, hpoly, BitVec.shiftLeft_xor_distrib]
  ac_rfl

/-- The polynomial's constant term is 1: a shift that drops a set bit leaves bit 0 set. -/
theorem eq_zero_of_crcShift_eq_zero : ∀ c : Byte, crcShift c = 0#8 → c = 0#8 := by decide

theorem toNat_crcShift (c : Byte) : (crcShift c).toNat =
    if c.getLsbD 7 then (c.toNat * 2 % 256) ^^^ 0x07 else c.toNat * 2 % 256 := by
  have hdouble : (c <<< 1).toNat = c.toNat * 2 % 256 := by
    rw [BitVec.toNat_shiftLeft, Nat.shiftLeft_eq, Nat.pow_one]
  rw [← hdouble, crcShift, show c.msb = c.getLsbD 7 from rfl]
  split
  · rw [BitVec.toNat_xor]; rfl
  · rfl

/-! ### n shifts -/

@[simp] theorem crcShifts_zero (n : Nat) : crcShifts n 0#8 = 0#8 := by
  induction n with
  | zero => rfl
  | succ n ih => exact ih

theorem crcShifts_xor (n : Nat) (a b : Byte) :
    crcShifts n (a ^^^ b) = crcShifts n a ^^^ crcShifts n b := by
  induction n generalizing a b with
  | zero => rfl
  | succ n ih => rw [crcShifts, crcShift_xor, ih, crcShifts, crcShifts]

theorem eq_zero_of_crcShifts_eq_zero {n : Nat} {c : Byte} (h : crcShifts n c = 0#8) : c = 0#8 := by
  induction n generalizing c with
  | zero => exact h
  | succ n ih => exact eq_zero_of_crcShift_eq_zero c (ih h)

theorem crcShifts_injective (n : Nat) : Function.Injective (crcShifts n) := by
  intro a b h
  have hxor : crcShifts n (a ^^^ b) = 0#8 := by rw [crcShifts_xor, h, BitVec.xor_self]
  exact BitVec.xor_eq_zero_iff.mp (eq_zero_of_crcShifts_eq_zero hxor)

/-! ### One byte -/

theorem crcByte_xor (c d a b : Byte) :
    crcByte (c ^^^ d) (a ^^^ b) = crcByte c a ^^^ crcByte d b := by
  rw [crcByte, crcByte, crcByte, ← crcShifts_xor]
  congr 1
  ac_rfl

@[simp] theorem crcByte_self (c : Byte) : crcByte c c = 0#8 := by
  rw [crcByte, BitVec.xor_self, crcShifts_zero]

theorem crcByte_left_injective (b : Byte) : Function.Injective (crcByte · b) :=
  fun _ _ h => (BitVec.xor_left_inj b).mp (crcShifts_injective 8 h)

theorem crcByte_right_injective (c : Byte) : Function.Injective (crcByte c) :=
  fun _ _ h => (BitVec.xor_right_inj c).mp (crcShifts_injective 8 h)

/-! ### A span -/

theorem foldl_crcByte_xor {as bs : List Byte} (h : as.length = bs.length) (c d : Byte) :
    (List.zipWith (· ^^^ ·) as bs).foldl crcByte (c ^^^ d) =
      as.foldl crcByte c ^^^ bs.foldl crcByte d := by
  induction as generalizing bs c d with
  | nil =>
    cases bs with
    | nil => rfl
    | cons b bs => cases h
  | cons a as ih =>
    cases bs with
    | nil => cases h
    | cons b bs =>
      rw [List.zipWith_cons_cons, List.foldl_cons, crcByte_xor]
      exact ih (Nat.succ.inj h) (crcByte c a) (crcByte d b)

theorem foldl_crcByte_injective (bs : List Byte) : Function.Injective (bs.foldl crcByte) := by
  induction bs with
  | nil => exact Function.injective_id
  | cons b bs ih => exact ih.comp (crcByte_left_injective b)

theorem crc8_nil (x : Byte) : crc8 x [] = 0x00#8 ^^^ x := rfl

/-- With CRC_XOROUT = 0 the result is the register behind the span. -/
theorem crc8_zero (bs : List Byte) : crc8 0#8 bs = bs.foldl crcByte crcInit := BitVec.xor_zero

theorem crc8_append (as bs : List Byte) :
    crc8 0#8 (as ++ bs) = bs.foldl crcByte (crc8 0#8 as) := by
  rw [crc8_zero, crc8_zero, List.foldl_append]

/-- 41_checksum.md R120: the bytes act in increasing order, and CRC_XOROUT comes last. -/
theorem crc8_concat (x b : Byte) (bs : List Byte) :
    crc8 x (bs ++ [b]) = crcByte (crc8 0#8 bs) b ^^^ x := by
  rw [crc8_zero, crc8, crcRegister, List.foldl_concat]

/-- Settles O8: the four parts are the equations of a shift, of a byte and of a span. -/
theorem checksumFollowsTheBitLoop : Obligations.ChecksumFollowsTheBitLoop :=
  ⟨toNat_crcShift, fun _ _ => rfl, crc8_nil, crc8_concat⟩

/-! ### The laws of crc8 -/

/-- 41_checksum.md R122, law 4. -/
theorem crc8_residue (bs : List Byte) (k : Nat) :
    crc8 0#8 (bs ++ [crc8 0#8 bs] ++ List.replicate k 0x00#8) = 0x00#8 := by
  induction k with
  | zero => rw [List.replicate_zero, List.append_nil, crc8_concat, crcByte_self]; rfl
  | succ k ih =>
    rw [List.replicate_succ', ← List.append_assoc, crc8_concat, ih, crcByte_self]; rfl

/-- Another byte in one place gives another checksum. -/
theorem crc8_ne_of_byte_ne (before after : List Byte) {a b : Byte} (h : a ≠ b) :
    crc8 0#8 (before ++ [a] ++ after) ≠ crc8 0#8 (before ++ [b] ++ after) := by
  rw [crc8_append _ after, crc8_append _ after, crc8_append, crc8_append]
  exact fun heq => h (crcByte_right_injective _ (foldl_crcByte_injective after heq))

theorem flip_bit_ne (b : Byte) {bit : Nat} (h : bit < 8) : b ^^^ (1#8 <<< bit) ≠ b := by
  intro heq
  have hbit := congrArg (BitVec.getLsbD · bit) heq
  simp [h] at hbit

/-- 41_checksum.md R122, law 6. -/
theorem crc8_zipWith_xor {as bs : List Byte} (h : as.length = bs.length) :
    crc8 0#8 (List.zipWith (· ^^^ ·) as bs) = crc8 0#8 as ^^^ crc8 0#8 bs := by
  rw [crc8_zero, crc8_zero, crc8_zero]
  exact foldl_crcByte_xor h crcInit crcInit

/-- 41_checksum.md R122, law 3: the check value over "123456789". -/
theorem crc8_checkValue :
    crc8 0#8 [0x31#8, 0x32#8, 0x33#8, 0x34#8, 0x35#8, 0x36#8, 0x37#8, 0x38#8, 0x39#8] = 0xF4#8 := by
  simp [crc8, crcRegister, crcByte, crcShifts, crcShift, crcPoly, crcInit,
    BitVec.msb_eq_getLsbD_last]

/-- Settles O9: the values are computed; a flip is seen because every byte's step is injective in the
register and in the byte. -/
theorem checksumLaws : Obligations.ChecksumLaws :=
  ⟨rfl, by decide, crc8_checkValue, crc8_residue,
    fun before after b _ hbit => crc8_ne_of_byte_ne before after (flip_bit_ne b hbit),
    fun _ _ => crc8_zipWith_xor⟩

/-! ### CRC_SPAN -/

theorem exec_crcSpan_of_mayAct {s : State} (hact : mayAct s) {n : Code}
    (hn : n.toNat ≤ s.cfg.frameLen) :
    exec (.crcSpan n) s = .next { s with crcOut := crc8 s.cfg.crcXorOut (memTake s.pkt n.toNat) } :=
  (whenEnabled_unlessHalted_of_mayAct (i := .crcSpan n) hact
    (enabled_command_of_mayAct rfl nofun hact) _).trans (if_pos hn)

/-- Settles O10: blocked, CRC_SPAN has no effect; otherwise it stores the checksum of the packet's
first n bytes, which at n = 0 is the empty span. -/
theorem crcSpanWritesPrefixChecksum : Obligations.CrcSpanWritesPrefixChecksum :=
  fun s n => ⟨rfl, enabled_command_iff (i := .crcSpan n) rfl nofun s, exec_command_of_blocked rfl,
    fun hact => exec_crcSpan_of_mayAct hact,
    fun hact hx => ⟨_, exec_crcSpan_of_mayAct hact (Nat.zero_le _), congrArg (crc8 · []) hx⟩⟩

/-! ### CRC_SPAN behind BUILD -/

theorem exec_build_of_mayAct {s : State} (hact : mayAct s) :
    exec .build s = .next (storeFrame (markBuildBusy s)) :=
  whenEnabled_unlessHalted_of_mayAct (i := .build) hact (enabled_command_of_mayAct rfl nofun hact) _

/-- 42_framer.md R140: the head, its checksum, and behind them the padding. -/
theorem take_frameBytes (c : Config) (cf vf : Code) {k : Nat} (hk : k ≤ c.padLen.bytes) :
    (frameBytes c cf vf).take (6 + k) =
      frameHead cf vf ++ [crc8 c.crcXorOut (frameHead cf vf)] ++ List.replicate k c.padByte :=
  calc (frameBytes c cf vf).take (6 + k)
    _ = frameHead cf vf ++ [crc8 c.crcXorOut (frameHead cf vf)] ++ (framePad c).take k :=
        List.take_length_add_append
          (l₁ := frameHead cf vf ++ [crc8 c.crcXorOut (frameHead cf vf)]) k
    _ = _ := by rw [framePad, List.take_replicate, Nat.min_eq_left hk]

/-- 41_checksum.md R122, law 4, on a frame: padding of 0x00 bytes keeps the residue. -/
theorem crc8_take_frameBytes {c : Config} (hx : c.crcXorOut = 0#8) (cf vf : Code) {k : Nat}
    (hk : k ≤ c.padLen.bytes) (hpad : k ≠ 0 → c.padByte = 0#8) :
    crc8 c.crcXorOut ((frameBytes c cf vf).take (6 + k)) = 0x00#8 := by
  have hzero : List.replicate k c.padByte = List.replicate k 0x00#8 := by
    by_cases h : k = 0
    · rw [h, List.replicate_zero, List.replicate_zero]
    · rw [hpad h]
  rw [take_frameBytes c cf vf hk, hzero, hx]
  exact crc8_residue _ k

section
variable {s : State} (hact : mayAct s) (hwf : s.pkt.wf = true)
include hact hwf

/-- What CRC_SPAN gives on a frame that BUILD has just stored. -/
theorem exec_crcSpan_of_built {n : Code} (hn : n.toNat ≤ s.cfg.frameLen) :
    ∃ u, exec (.crcSpan n) (storeFrame (markBuildBusy s)) = .next u ∧
      u.crcOut = crc8 s.cfg.crcXorOut
        ((frameBytes s.cfg (currentField (markBuildBusy s)) (voltageField (markBuildBusy s))).take
          n.toNat) ∧
      u.pkt = (storeFrame (markBuildBusy s)).pkt := by
  have hact' : mayAct (storeFrame (markBuildBusy s)) := by simpa [mayAct] using hact
  refine ⟨_, exec_crcSpan_of_mayAct hact' (by simpa using hn), ?_, rfl⟩
  simp only [storeFrame_cfg, storeFrame_pkt, markBuildBusy_cfg, markBuildBusy_pkt]
  rw [memTake_eq_take _ hn, memTake_storedFrame hwf]

theorem exec_crcSpan_residue_of_built (hx : s.cfg.crcXorOut = 0#8) {n : Code} {k : Nat}
    (hn : n.toNat = 6 + k) (hk : k ≤ s.cfg.padLen.bytes) (hpad : k ≠ 0 → s.cfg.padByte = 0#8) :
    ∃ u, exec (.crcSpan n) (storeFrame (markBuildBusy s)) = .next u ∧ u.crcOut = 0x00#8 := by
  obtain ⟨u, hu, hcrc, _⟩ := exec_crcSpan_of_built hact hwf (n := n)
    (hn.trans_le (Nat.add_le_add_left hk 6))
  rw [hn, crc8_take_frameBytes hx _ _ hk hpad] at hcrc
  exact ⟨u, hu, hcrc⟩

end

/-- 42_framer.md R140: PKT[5] holds the checksum of the head. -/
theorem memRead_built_checksum {s : State} (hwf : s.pkt.wf = true) :
    memRead (storeFrame (markBuildBusy s)).pkt 5 = crc8 s.cfg.crcXorOut
      (frameHead (currentField (markBuildBusy s)) (voltageField (markBuildBusy s))) := by
  rw [storeFrame_pkt, markBuildBusy_pkt, markBuildBusy_cfg,
    memRead_storedFrame hwf _ _ _ (Nat.lt_of_lt_of_le (by decide) s.cfg.six_le_frameLen)]
  rfl

/-- Settles O13: the first 5 bytes of the frame are what PKT[5] is the checksum of, and from 6 on the
span is the head with its checksum, with 0x00 bytes behind. -/
theorem builtFrameHasZeroResidue : Obligations.BuiltFrameHasZeroResidue := by
  intro s hact hwf hx
  refine ⟨_, exec_build_of_mayAct hact, ?five, ?six, fun htwo hpad => ⟨?seven, ?eight⟩⟩
  case five =>
    obtain ⟨u, hu, hcrc, hpkt⟩ := exec_crcSpan_of_built hact hwf (n := 5#16)
      (Nat.le_trans (by decide) s.cfg.six_le_frameLen)
    exact ⟨u, hu, hcrc.trans (memRead_built_checksum hwf).symm, hpkt⟩
  case six => exact exec_crcSpan_residue_of_built hact hwf hx (k := 0) rfl (Nat.zero_le _) nofun
  case seven =>
    exact exec_crcSpan_residue_of_built hact hwf hx (k := 1) rfl (by rw [htwo]; decide) fun _ => hpad
  case eight =>
    exact exec_crcSpan_residue_of_built hact hwf hx (k := 2) rfl (by rw [htwo]; decide) fun _ => hpad

end Sys2Proof.Machine
end

section
/-! PROOFS. The framer (42_framer.md): the state BUILD answers, the frame it stores byte by byte, and the
inputs that frame depends on. -/

namespace Sys2Proof.Machine

/-! ### The fields -/

/-- 42_framer.md R142: a converted value keeps only its low 16 bits. -/
theorem currentField_eq (s : State) : currentField s =
    if s.cfg.fixedDebugFields then 0x0102#16
    else if s.cfg.sendRaw then s.sampleI else s.curUa.extractLsb' 0 16 := by
  rw [currentField, BitVec.setWidth_eq_extractLsb' (by decide), debugCurrent]

theorem voltageField_eq (s : State) : voltageField s =
    if s.cfg.fixedDebugFields then 0x0304#16
    else if s.cfg.sendRaw then s.sampleV else s.voltMv.extractLsb' 0 16 := by
  rw [voltageField, BitVec.setWidth_eq_extractLsb' (by decide), debugVoltage]

theorem currentField_congr {s t : State} (hc : s.cfg = t.cfg) (hI : s.sampleI = t.sampleI)
    (hU : s.curUa.extractLsb' 0 16 = t.curUa.extractLsb' 0 16) : currentField s = currentField t := by
  rw [currentField_eq, currentField_eq, hc, hI, hU]

theorem voltageField_congr {s t : State} (hc : s.cfg = t.cfg) (hV : s.sampleV = t.sampleV)
    (hM : s.voltMv.extractLsb' 0 16 = t.voltMv.extractLsb' 0 16) : voltageField s = voltageField t := by
  rw [voltageField_eq, voltageField_eq, hc, hV, hM]

/-! ### The state BUILD answers -/

/-- 60_exceptions.md R212: the hazard sets ERR_BUILD_BUSY alone. -/
theorem markBuildBusy_eq (s : State) :
    markBuildBusy s = { s with errBuildBusy := s.errBuildBusy || s.txState == .sending } := by
  unfold markBuildBusy
  split
  · next hsending => simp [raise, hsending]
  · next hidle => rw [beq_eq_false_iff_ne.mpr hidle, Bool.or_false]

/-- 42_framer.md R141: the fields are those of the state BUILD was given. -/
theorem exec_build_eq {s : State} (hact : mayAct s) :
    exec .build s = .next { s with
      pkt := memWriteList s.pkt 0 (frameBytes s.cfg (currentField s) (voltageField s))
      errBuildBusy := s.errBuildBusy || s.txState == .sending } := by
  rw [exec_build_of_mayAct hact, markBuildBusy_eq]
  rfl

/-! ### The bytes of a stored frame -/

section
variable {m : Memory} (hm : m.wf = true) (c : Config) (cf vf : Code)
include hm

/-- 42_framer.md R140: for either PAD_LEN the first six bytes are the head and its checksum. -/
theorem memRead_storedFrame_head {a : Nat} (ha : a < 6) :
    memRead (memWriteList m 0 (frameBytes c cf vf)) a =
      (frameHead cf vf ++ [crc8 c.crcXorOut (frameHead cf vf)]).getD a 0x00#8 := by
  rw [memRead_storedFrame hm c cf vf (ha.trans_le c.six_le_frameLen)]
  exact List.getD_append _ _ _ _ ha

/-- 42_framer.md R140: the checksum's span, PKT[0..4], is the head. -/
theorem memTake_storedFrame_head :
    memTake (memWriteList m 0 (frameBytes c cf vf)) 5 = frameHead cf vf := by
  rw [memTake_eq_take _ (Nat.le_trans (by decide) c.six_le_frameLen), memTake_storedFrame hm]
  rfl

/-- 42_framer.md R140: from byte 6 on, the frame is padding. -/
theorem memRead_storedFrame_pad {a : Nat} (h6 : 6 ≤ a) (ha : a < c.frameLen) :
    memRead (memWriteList m 0 (frameBytes c cf vf)) a = c.padByte := by
  rw [memRead_storedFrame hm c cf vf ha]
  calc (frameBytes c cf vf).getD a 0x00#8
    _ = (framePad c).getD (a - 6) 0x00#8 :=
        List.getD_append_right (frameHead cf vf ++ [crc8 c.crcXorOut (frameHead cf vf)]) _ _ _ h6
    _ = c.padByte := List.getD_replicate _ (Nat.sub_lt_left_of_lt_add h6 ha)

/-- 42_framer.md R144: the same frame stored again changes no byte. -/
theorem memRead_storedFrame_twice (a : Nat) :
    memRead (memWriteList (memWriteList m 0 (frameBytes c cf vf)) 0 (frameBytes c cf vf)) a =
      memRead (memWriteList m 0 (frameBytes c cf vf)) a := by
  have hm' := memWriteList_wf hm 0 (frameBytes c cf vf)
  by_cases ha : a < c.frameLen
  · rw [memRead_storedFrame hm' c cf vf ha, memRead_storedFrame hm c cf vf ha]
  · exact memRead_behindFrame hm' c cf vf (Nat.le_of_not_lt ha)

end

/-- Settles O11: blocked, BUILD has no effect; otherwise PKT reads as the head, its checksum and the
padding, and behind the frame as before. -/
theorem buildStoresTheFrame : Obligations.BuildStoresTheFrame := by
  refine ⟨rfl, fun s hwf => ⟨enabled_command_iff (i := .build) rfl nofun s,
    exec_command_of_blocked rfl, ?_⟩⟩
  intro hact cf vf hcf hvf
  rw [← currentField_eq] at hcf
  rw [← voltageField_eq] at hvf
  subst hcf hvf
  have hhead {a : Nat} (ha : a < 6) :=
    memRead_storedFrame_head hwf s.cfg (currentField s) (voltageField s) ha
  have hpad {a : Nat} (h6 : 6 ≤ a) (ha : a < 8) (htwo : s.cfg.padLen = .two) :=
    memRead_storedFrame_pad hwf s.cfg (currentField s) (voltageField s) h6
      (ha.trans_eq (Config.frameLen_of_two htwo).symm)
  refine ⟨_, exec_build_eq hact, hhead (by decide), hhead (by decide), hhead (by decide),
    hhead (by decide), hhead (by decide), ?checksum,
    fun htwo => ⟨hpad (by decide) (by decide) htwo, hpad (by decide) (by decide) htwo⟩,
    fun a => memRead_behindFrame hwf s.cfg _ _⟩
  case checksum =>
    exact (hhead (by decide)).trans
      (congrArg (crc8 s.cfg.crcXorOut) (memTake_storedFrame_head hwf s.cfg _ _).symm)

/-- Settles O12: the frames of two states with the same inputs are the same bytes, and a BUILD leaves
the inputs as they are, so a second one stores the frame again. -/
theorem buildDependsOnItsInputsAlone : Obligations.BuildDependsOnItsInputsAlone := by
  intro s t hs ht hc hI hV hU hM hacts hactt
  refine ⟨_, _, exec_build_eq hacts, exec_build_eq hactt, fun a ha => ?same,
    _, exec_build_eq hacts, memRead_storedFrame_twice hs s.cfg (currentField s) (voltageField s)⟩
  case same =>
    rw [memRead_storedFrame hs _ _ _ ha, memRead_storedFrame ht _ _ _ (hc ▸ ha),
      hc, currentField_congr hc hI hU, voltageField_congr hc hV hM]

end Sys2Proof.Machine
end

section
/-! PROOFS. The transmission engine (43_transmitter.md): what START_SEND, EVT_BYTE_READY and EVT_TX_TAKE do,
and that no other instruction moves it. -/

namespace Sys2Proof.Machine

/-! ### The three effects -/

/-- What START_SEND does from Idle (43_transmitter.md R161). -/
def startFrame (s : State) : State := enterSending (emit (memRead s.pkt 0) s)

/-- What a delivered EVT_BYTE_READY does (43_transmitter.md R163). -/
def sendNextByte (s : State) : State :=
  wake (advanceCursor (emit (memRead s.pkt s.txCursor.toNat) s))

/-- What EVT_TX_TAKE does with a byte in the transport (43_transmitter.md R164). -/
def takeByte (s : State) : State := { s with txLine := s.txLine ++ [s.txHold], txEmpty := true }

/-- The strobe of a wake, recorded only where it ends a wait (log entry 6). -/
def wakeStrobe (s : State) : List Output := if s.waiting then [.wake] else []

theorem wake_eq (s : State) :
    wake s = { s with waiting := false, outputs := s.outputs ++ wakeStrobe s } := by
  simp only [wake, wakeStrobe]
  split
  · rfl
  · rw [List.append_nil]

theorem txStrobes_byte_wakeStrobe (b : Byte) (s : State) :
    txStrobes (.txData b :: wakeStrobe s) = [b] := by
  simp only [wakeStrobe]
  split <;> rfl

theorem convStarts_byte_wakeStrobe (b : Byte) (s : State) :
    convStarts (.txData b :: wakeStrobe s) = 0 := by
  simp only [wakeStrobe]
  split <;> rfl

theorem cursor_lt_eight {s : State} (h : s.txCursor.toNat + 1 ≤ s.cfg.frameLen) :
    s.txCursor.toNat < 8 := h.trans s.cfg.frameLen_le_eight

theorem advanceCursor_of_lt {s : State} (h : s.txCursor.toNat + 1 < s.cfg.frameLen) :
    advanceCursor s = { s with txCursor := s.txCursor + 1#4 } :=
  if_neg (by rw [cursor_succ (cursor_lt_eight h.le)]; exact h.ne)

theorem advanceCursor_of_last {s : State} (h : s.txCursor.toNat + 1 = s.cfg.frameLen) :
    advanceCursor s = enterIdle s :=
  if_pos (by rw [cursor_succ (cursor_lt_eight h.le)]; exact h)

theorem sendNextByte_of_lt {s : State} (h : s.txCursor.toNat + 1 < s.cfg.frameLen) :
    sendNextByte s = { s with
      txEmpty := false, txHold := memRead s.pkt s.txCursor.toNat
      txCursor := s.txCursor + 1#4, waiting := false
      outputs := s.outputs ++ .txData (memRead s.pkt s.txCursor.toNat) :: wakeStrobe s } := by
  rw [sendNextByte, advanceCursor_of_lt (s := emit _ s) h, wake_eq]
  simp only [emit_outputs, List.append_assoc, List.singleton_append]
  rfl

theorem sendNextByte_of_last {s : State} (h : s.txCursor.toNat + 1 = s.cfg.frameLen) :
    sendNextByte s = { s with
      txEmpty := false, txHold := memRead s.pkt s.txCursor.toNat
      txCursor := 0#4, txie := false, txState := .idle, waiting := false
      outputs := s.outputs ++ .txData (memRead s.pkt s.txCursor.toNat) :: wakeStrobe s } := by
  rw [sendNextByte, advanceCursor_of_last (s := emit _ s) h, wake_eq]
  simp only [enterIdle_outputs, emit_outputs, List.append_assoc, List.singleton_append]
  rfl

/-! ### START_SEND -/

theorem exec_eq_whenEnabled (i : Instr) (s : State) : ∃ effect, exec i s = whenEnabled i s effect := by
  unfold exec
  cases i <;> exact ⟨_, rfl⟩

/-- 00_scope.md R14: no step where the guard is false (log entry 5). -/
theorem exec_of_disabled {i : Instr} {s : State} (h : enabled i s = false) : exec i s = .next s := by
  obtain ⟨_, heq⟩ := exec_eq_whenEnabled i s
  rw [heq]
  exact if_neg (ne_true_of_eq_false h)

theorem enabled_startSend_iff (s : State) : enabled .startSend s = true ↔
    s.waiting = false ∧ (s.halted = true ∨ s.txState = .sending ∨ s.txEmpty = true) := by
  simp [enabled, or_assoc]

theorem enabled_startSend_of_held {s : State} (hh : s.halted = false) (hi : s.txState = .idle)
    (he : s.txEmpty = false) : enabled .startSend s = false := by
  simp [enabled, hh, hi, he]

theorem exec_startSend_of_held {s : State} (hh : s.halted = false) (hi : s.txState = .idle)
    (he : s.txEmpty = false) : exec .startSend s = .next s :=
  exec_of_disabled (enabled_startSend_of_held hh hi he)

theorem not_blocked_iff_mayAct (s : State) : ¬ blocked s ↔ mayAct s := by
  simp [blocked, mayAct]

/-- 43_transmitter.md R167. -/
theorem exec_startSend_of_sending {s : State} (hs : s.txState = .sending) :
    exec .startSend s = .next s := by
  by_cases hb : blocked s
  · exact exec_command_of_blocked rfl hb
  · have hact := (not_blocked_iff_mayAct s).mp hb
    exact (whenEnabled_unlessHalted_of_mayAct hact
      ((enabled_startSend_iff s).mpr ⟨hact.1, .inr (.inl hs)⟩) _).trans (if_pos hs)

theorem exec_startSend_of_idle {s : State} (hact : mayAct s) (hi : s.txState = .idle)
    (he : s.txEmpty = true) : exec .startSend s = .next (startFrame s) :=
  (whenEnabled_unlessHalted_of_mayAct hact
    ((enabled_startSend_iff s).mpr ⟨hact.1, .inr (.inr he)⟩) _).trans
      (if_neg (by rw [hi]; exact nofun))

/-- Settles O14: one equation of START_SEND per case of its rule. -/
theorem startSendRule : Obligations.StartSendRule :=
  ⟨rfl, fun s => ⟨enabled_startSend_iff s, exec_command_of_blocked rfl, exec_startSend_of_sending,
    fun hact => exec_startSend_of_held hact.2, exec_startSend_of_idle⟩⟩

/-! ### EVT_BYTE_READY -/

theorem enabled_evtByteReady_iff (s : State) :
    enabled .evtByteReady s = true ↔ s.txie = true ∧ s.txEmpty = true := by
  simp [enabled]

theorem exec_evtByteReady_of_masked {s : State} (h : s.txie = false ∨ s.txEmpty = false) :
    exec .evtByteReady s = .next s :=
  exec_of_disabled (i := .evtByteReady) (Bool.and_eq_false_iff.mpr h)

theorem exec_evtByteReady_of_halted {s : State} (h : s.halted = true) :
    exec .evtByteReady s = .next s :=
  whenEnabled_unlessHalted_of_halted h _ _

section
variable {s : State} (hi : s.txie = true) (he : s.txEmpty = true) (hh : s.halted = false)
include hi he hh

theorem exec_evtByteReady_of_lt_eight (hc : s.txCursor.toNat < 8) :
    exec .evtByteReady s = .next (sendNextByte s) := by
  simp [exec, execEvtByteReady, whenEnabled, enabled, unlessHalted, pktByte?, pktSize, hi, he, hh, hc,
    sendNextByte]

theorem exec_evtByteReady_of_beyond (hc : 8 ≤ s.txCursor.toNat) :
    exec .evtByteReady s = .fault .noSuchPacketByte := by
  simp [exec, execEvtByteReady, whenEnabled, enabled, unlessHalted, pktByte?, pktSize, hi, he, hh,
    Nat.not_lt.mpr hc]

end

/-- Settles O19: a delivered byte-ready is `sendNextByte`, whose two equations are the advance and the
last byte. -/
theorem byteReadyRule : Obligations.ByteReadyRule := by
  refine ⟨rfl, fun s => ⟨enabled_evtByteReady_iff s, exec_evtByteReady_of_masked,
    exec_evtByteReady_of_halted, fun hi he hh hc => ?advance, fun hi he hh hc => ?last⟩⟩
  case advance =>
    refine ⟨_, ?_, txStrobes_byte_wakeStrobe _ s, convStarts_byte_wakeStrobe _ s⟩
    rw [exec_evtByteReady_of_lt_eight hi he hh (cursor_lt_eight hc.le), sendNextByte_of_lt hc]
  case last =>
    refine ⟨_, ?_, txStrobes_byte_wakeStrobe _ s, convStarts_byte_wakeStrobe _ s⟩
    rw [exec_evtByteReady_of_lt_eight hi he hh (cursor_lt_eight hc.le), sendNextByte_of_last hc]

/-! ### EVT_TX_TAKE -/

theorem enabled_evtTxTake_iff (s : State) : enabled .evtTxTake s = true ↔ s.txEmpty = false := by
  simp [enabled]

theorem exec_evtTxTake_of_empty {s : State} (h : s.txEmpty = true) : exec .evtTxTake s = .next s :=
  exec_of_disabled (by simp [enabled, h])

theorem exec_evtTxTake_of_full {s : State} (h : s.txEmpty = false) :
    exec .evtTxTake s = .next (takeByte s) := if_pos ((enabled_evtTxTake_iff s).mpr h)

/-- Settles O20: EVT_TX_TAKE is `takeByte` where its guard holds. -/
theorem transportTakeRule : Obligations.TransportTakeRule :=
  ⟨rfl, fun s => ⟨enabled_evtTxTake_iff s, exec_evtTxTake_of_empty, exec_evtTxTake_of_full⟩⟩

/-! ### A held START_SEND -/

theorem commandWrite_of_disabled {w : Word} {i : Instr} {s : State} (hh : s.halted = false)
    (hd : decodeCommand s.cfg.frameLen w = .ok i) (he : enabled i s = false) :
    commandWrite w s = .next s := by
  simp only [commandWrite, hh, hd, he, Bool.false_eq_true, if_false]

theorem decodeCommand_startSend (frameLen : Nat) :
    decodeCommand frameLen 0x00000007#32 = .ok .startSend :=
  decode_encode (i := .startSend) rfl

theorem decodeEvent_txTakeRecord : decodeEvent txTakeRecord = .ok .evtTxTake := rfl

theorem decodeEvent_byteReadyRecord : decodeEvent byteReadyRecord = .ok .evtByteReady := rfl

/-- Settles O15: the held command's turn issues nothing; EVT_TX_TAKE makes its guard true. -/
theorem heldStartSendWaitsForTheTransport : Obligations.HeldStartSendWaitsForTheTransport := by
  rintro s rest ⟨hw, hh⟩ hi he ha
  refine ⟨fun hs => ?held, fun hs => ?taken⟩
  case held =>
    rw [step_of_access hs hw ha]
    exact commandWrite_of_disabled (s := { s with schedule := rest }) hh (decodeCommand_startSend _)
      (enabled_startSend_of_held hh hi he)
  case taken =>
    have htake : step s = .next (takeByte { s with schedule := .consumer :: rest }) :=
      (step_of_event hs decodeEvent_txTakeRecord).trans (exec_evtTxTake_of_full he)
    have hstart : step (takeByte { s with schedule := .consumer :: rest }) =
        exec .startSend { takeByte s with schedule := rest, progPos := s.progPos + 1 } :=
      step_of_command rfl hw ha (decodeCommand_startSend _)
        ((enabled_startSend_iff _).mpr ⟨hw, .inr (.inr rfl)⟩)
    rw [runSteps_succ 1 htake]
    exact runSteps_succ 0 (hstart.trans (exec_startSend_of_idle ⟨hw, hh⟩ hi rfl))

/-! ### Every instruction answers -/

/-- Where EVT_BYTE_READY has no byte to send: it is delivered with a cursor beyond PKT[7] (log entry 7). -/
def sendsBeyondPacket (i : Instr) (s : State) : Prop :=
  i = .evtByteReady ∧ s.halted = false ∧ s.txie = true ∧ s.txEmpty = true ∧ 8 ≤ s.txCursor.toNat

theorem whenEnabled_answers {i : Instr} {s : State} {f : State → Outcome} (hf : ∃ t, f s = .next t) :
    ∃ t, whenEnabled i s f = .next t := by
  unfold whenEnabled
  split
  · exact hf
  · exact ⟨s, rfl⟩

theorem whenEnabled_unlessHalted_answers {i : Instr} {s : State} {f : State → Outcome}
    (hf : ∃ t, f s = .next t) : ∃ t, whenEnabled i s (fun s => unlessHalted s f) = .next t := by
  refine whenEnabled_answers ?_
  unfold unlessHalted
  split
  · exact ⟨s, rfl⟩
  · exact hf

theorem ite_answers {p : Prop} [Decidable p] (s t : State) :
    ∃ u, (if p then .next s else .next t : Outcome) = .next u := by
  split
  · exact ⟨s, rfl⟩
  · exact ⟨t, rfl⟩

theorem exec_answers_of_ne_byteReady {i : Instr} (hne : i ≠ .evtByteReady) (s : State) :
    ∃ t, exec i s = .next t := by
  unfold exec
  cases i with
  | evtByteReady => exact absurd rfl hne
  | nop | evtTxTake | evtFault =>
    exact whenEnabled_answers ⟨_, rfl⟩
  | consume | startSend | crcSpan _ | evtTrig | evtConvDone _ _ =>
    exact whenEnabled_unlessHalted_answers (ite_answers _ _)
  | _ => exact whenEnabled_unlessHalted_answers ⟨_, rfl⟩

theorem exec_evtByteReady_answers {s : State} (h : ¬ sendsBeyondPacket .evtByteReady s) :
    ∃ t, exec .evtByteReady s = .next t := by
  cases hi : s.txie
  case false => exact ⟨s, exec_evtByteReady_of_masked (.inl hi)⟩
  cases he : s.txEmpty
  case false => exact ⟨s, exec_evtByteReady_of_masked (.inr he)⟩
  cases hh : s.halted
  case true => exact ⟨s, exec_evtByteReady_of_halted hh⟩
  have hc : s.txCursor.toNat < 8 := Nat.lt_of_not_le fun hc => h ⟨rfl, hh, hi, he, hc⟩
  exact ⟨_, exec_evtByteReady_of_lt_eight hi he hh hc⟩

theorem exec_answers {i : Instr} {s : State} (h : ¬ sendsBeyondPacket i s) :
    ∃ t, exec i s = .next t := by
  by_cases hi : i = .evtByteReady
  · subst hi; exact exec_evtByteReady_answers h
  · exact exec_answers_of_ne_byteReady hi s

theorem exec_of_sendsBeyondPacket {i : Instr} {s : State} (h : sendsBeyondPacket i s) :
    exec i s = .fault .noSuchPacketByte := by
  obtain ⟨rfl, hh, hi, he, hc⟩ := h
  exact exec_evtByteReady_of_beyond hi he hh hc

section
variable {s : State} (hs : BlockInv s)
include hs

theorem BlockInv.cursor_lt_frameLen : s.txCursor.toNat < s.cfg.frameLen := by
  have hlen := s.cfg.six_le_frameLen
  cases htx : s.txState with
  | idle => simp only [hs.idleCursor htx, BitVec.toNat_ofNat]; omega
  | sending => obtain ⟨_, hle⟩ := hs.sendingCursor htx; omega

theorem BlockInv.not_sendsBeyondPacket (i : Instr) : ¬ sendsBeyondPacket i s :=
  fun ⟨_, _, _, _, hc⟩ => absurd (cursor_lt_eight hs.cursor_lt_frameLen) (Nat.not_lt.mpr hc)

end

/-- Settles O54: exec answers but where EVT_BYTE_READY sends from beyond the packet, and the invariant
bounds the cursor by FRAME_LEN. -/
theorem everyInstructionAnswersANextState : Obligations.EveryInstructionAnswersANextState := by
  refine ⟨fun i s hs => exec_answers (hs.not_sendsBeyondPacket i), fun i s r => ⟨fun h => ?_, ?_⟩,
    fun i s r h => ?_⟩
  · by_cases hb : sendsBeyondPacket i s
    · rw [exec_of_sendsBeyondPacket hb] at h
      cases h
      exact ⟨rfl, hb⟩
    · obtain ⟨t, ht⟩ := exec_answers hb
      cases ht.symm.trans h
  · rintro ⟨rfl, hb⟩
    exact exec_of_sendsBeyondPacket hb
  · by_cases hb : sendsBeyondPacket i s
    · cases (exec_of_sendsBeyondPacket hb).symm.trans h
    · obtain ⟨t, ht⟩ := exec_answers hb
      cases ht.symm.trans h

end Sys2Proof.Machine
end

section
/-! PROOFS. The invariant of the machine (43_transmitter.md R165): every way an instruction touches the
transmitter or the packet keeps it, and so does every turn. -/

namespace Sys2Proof.Machine

/-! ### What the transmitter can do -/

/-- t has the configuration, the packet and the transmitter of s, and has emitted the same bytes: all that
the invariant and the byte stream read. -/
structure SameTransmitter (s t : State) : Prop where
  cfg : t.cfg = s.cfg
  pkt : t.pkt = s.pkt
  txState : t.txState = s.txState
  txCursor : t.txCursor = s.txCursor
  txie : t.txie = s.txie
  txEmpty : t.txEmpty = s.txEmpty
  txHold : t.txHold = s.txHold
  txLine : t.txLine = s.txLine
  strobes : txStrobes t.outputs = txStrobes s.outputs

theorem SameTransmitter.refl (s : State) : SameTransmitter s s :=
  ⟨rfl, rfl, rfl, rfl, rfl, rfl, rfl, rfl, rfl⟩

section
variable {s t : State} (h : SameTransmitter s t)
include h

theorem SameTransmitter.after_wake : SameTransmitter s (wake t) :=
  { h with strobes := (txStrobes_wake t).trans h.strobes }

theorem SameTransmitter.after_convStart : SameTransmitter s (convStart t) :=
  { h with strobes := by simp [txStrobes, h.strobes] }

theorem SameTransmitter.after_putRegData (w : Word) : SameTransmitter s (putRegData w t) :=
  { h with strobes := by simp [txStrobes, h.strobes] }

theorem SameTransmitter.after_nextAccess : SameTransmitter s (nextAccess t) := { h with }

end

/-- What an instruction does to the packet and the transmitter. -/
inductive TransmitterEffect : Instr → State → State → Prop where
  | kept {s t : State} (i : Instr) (h : SameTransmitter s t) : TransmitterEffect i s t
  | build (s : State) : TransmitterEffect .build s (storeFrame (markBuildBusy s))
  | start {s : State} (hi : s.txState = .idle) (he : s.txEmpty = true) :
      TransmitterEffect .startSend s (startFrame s)
  | sendNext {s : State} (hi : s.txie = true) (he : s.txEmpty = true) :
      TransmitterEffect .evtByteReady s (sendNextByte s)
  | take {s : State} (he : s.txEmpty = false) : TransmitterEffect .evtTxTake s (takeByte s)

theorem ExecEffect.transmitter {i : Instr} {s t : State} (h : ExecEffect i s t) :
    TransmitterEffect i s t := by
  cases h with
  | build => exact .build s
  | startSend _ _ _ hi he => exact .start hi he
  | byteReady _ _ hi he => exact .sendNext hi he
  | txTake _ he => exact .take he
  | trigStart => exact .kept _ (.after_wake (.after_convStart { SameTransmitter.refl s with }))
  | trigBusy => exact .kept _ (.after_wake (.refl s))
  | convDone => exact .kept _ (.after_wake { SameTransmitter.refl s with })
  | _ => exact .kept _ { SameTransmitter.refl s with }

/-- The engine stands at a byte of the frame: the cursor's advance either stays inside or ends it. -/
theorem BlockInv.cursor_cases {s : State} (hs : BlockInv s) :
    s.txCursor.toNat + 1 < s.cfg.frameLen ∨ s.txCursor.toNat + 1 = s.cfg.frameLen :=
  Nat.lt_or_eq_of_le hs.cursor_lt_frameLen

/-- Settles O44: of the transmitter's effects only START_SEND and EVT_BYTE_READY write the three
registers, and the invariant bounds the cursor of the latter. -/
theorem onlyTheFourTransitionsMoveTheEngine : Obligations.OnlyTheFourTransitionsMoveTheEngine := by
  intro i s t hs h
  cases (exec_effect h).transmitter with
  | kept _ hsame => exact .inl ⟨hsame.txState, hsame.txCursor, hsame.txie⟩
  | build => left; simp
  | start hi he => exact .inr (.inl ⟨rfl, hi, he, rfl, rfl, rfl⟩)
  | sendNext hi he =>
    have hsending := hs.notify.mp hi
    obtain hc | hc := hs.cursor_cases
    · rw [sendNextByte_of_lt hc]
      exact .inr (.inr (.inl ⟨rfl, hsending, he, hc, hsending, rfl, hi⟩))
    · rw [sendNextByte_of_last hc]
      exact .inr (.inr (.inr ⟨rfl, hsending, he, hc, rfl, rfl, rfl⟩))
  | take => exact .inl ⟨rfl, rfl, rfl⟩

/-! ### The transport's byte -/

theorem inFlight_of_empty {s : State} (h : s.txEmpty = true) : inFlight s = [] := if_pos h

theorem inFlight_of_full {s : State} (h : s.txEmpty = false) : inFlight s = [s.txHold] :=
  if_neg (ne_true_of_eq_false h)

/-- 43_transmitter.md R164: a take moves the byte, and emits none. -/
theorem txLine_inFlight_takeByte {s : State} (he : s.txEmpty = false) :
    (takeByte s).txLine ++ inFlight (takeByte s) = s.txLine ++ inFlight s := by
  rw [inFlight_of_full he, inFlight_of_empty rfl, List.append_nil]
  rfl

/-! ### Each effect keeps the invariant -/

/-- 42_framer.md R143. -/
theorem storedFrame_isFrame {m : Memory} (hm : m.wf = true) (c : Config) (cf vf : Code) :
    IsFrame c (memWriteList m 0 (frameBytes c cf vf)) where
  marker := memRead_storedFrame_head hm c cf vf (a := 0) (by decide)
  checksum := by
    rw [memTake_storedFrame_head hm]
    exact memRead_storedFrame_head hm c cf vf (a := 5) (by decide)
  padding htwo := by
    have hlen := Config.frameLen_of_two htwo
    exact ⟨memRead_storedFrame_pad hm c cf vf (by decide) (by rw [hlen]; decide),
      memRead_storedFrame_pad hm c cf vf (by decide) (by rw [hlen]; decide)⟩

section
variable {s : State} (hs : BlockInv s)
include hs

theorem BlockInv.of_sameTransmitter {t : State} (h : SameTransmitter s t) : BlockInv t where
  notify := by rw [h.txie, h.txState]; exact hs.notify
  idleCursor := by rw [h.txState, h.txCursor]; exact hs.idleCursor
  sendingCursor := by rw [h.txState, h.txCursor, h.cfg]; exact hs.sendingCursor
  canonical := by rw [h.pkt]; exact hs.canonical
  tail := by rw [h.pkt, h.cfg]; exact hs.tail
  contents := by rw [h.pkt, h.cfg]; exact hs.contents
  lossless := by rw [h.strobes, inFlight, h.txLine, h.txEmpty, h.txHold]; exact hs.lossless

theorem BlockInv.txStrobes_of_empty (he : s.txEmpty = true) : txStrobes s.outputs = s.txLine := by
  rw [hs.lossless, inFlight_of_empty he, List.append_nil]

theorem BlockInv.after_build : BlockInv (storeFrame (markBuildBusy s)) := by
  rw [markBuildBusy_eq]
  exact { hs with
    canonical := memWriteList_wf hs.canonical 0 _
    tail := fun a ha => (memRead_behindFrame hs.canonical s.cfg _ _ ha).trans (hs.tail a ha)
    contents := .inr (storedFrame_isFrame hs.canonical s.cfg _ _) }

theorem BlockInv.after_startFrame (he : s.txEmpty = true) : BlockInv (startFrame s) :=
  { hs with
    notify := iff_of_true rfl rfl
    idleCursor := nofun
    sendingCursor := fun _ =>
      ⟨Nat.le_refl 1, Nat.le_sub_one_of_lt
        (Nat.lt_of_lt_of_le (show 1 < 6 by decide) s.cfg.six_le_frameLen)⟩
    lossless := by
      rw [inFlight_of_full rfl]
      exact (txStrobes_append _ _).trans (congrArg (· ++ _) (hs.txStrobes_of_empty he)) }

/-- The byte of a byte-ready is emitted into an empty transport. -/
theorem BlockInv.txStrobes_nextByte (he : s.txEmpty = true) (b : Byte) :
    txStrobes (s.outputs ++ .txData b :: wakeStrobe s) = s.txLine ++ [b] := by
  rw [txStrobes_append, txStrobes_byte_wakeStrobe, hs.txStrobes_of_empty he]

theorem BlockInv.after_sendNextByte (hi : s.txie = true) (he : s.txEmpty = true) :
    BlockInv (sendNextByte s) := by
  obtain hc | hc := hs.cursor_cases
  · rw [sendNextByte_of_lt hc]
    have hsending := hs.notify.mp hi
    have hcursor := cursor_succ (cursor_lt_eight hc.le)
    exact { hs with
      idleCursor := fun hidle => nomatch hsending.symm.trans hidle
      sendingCursor := fun _ => by
        rw [hcursor]
        exact ⟨Nat.le_add_left 1 _, Nat.le_sub_one_of_lt hc⟩
      lossless := hs.txStrobes_nextByte he _ }
  · rw [sendNextByte_of_last hc]
    exact { hs with
      notify := iff_of_false Bool.false_ne_true nofun
      idleCursor := fun _ => rfl
      sendingCursor := nofun
      lossless := hs.txStrobes_nextByte he _ }

theorem BlockInv.after_takeByte (he : s.txEmpty = false) : BlockInv (takeByte s) :=
  { hs with lossless := hs.lossless.trans (txLine_inFlight_takeByte he).symm }

theorem BlockInv.after_execEffect {i : Instr} {t : State} (h : ExecEffect i s t) : BlockInv t := by
  cases h.transmitter with
  | kept _ hsame => exact hs.of_sameTransmitter hsame
  | build => exact hs.after_build
  | start _ he => exact hs.after_startFrame he
  | sendNext hi he => exact hs.after_sendNextByte hi he
  | take he => exact hs.after_takeByte he

end

theorem applyReset_blockInv (s : State) : BlockInv (applyReset s) :=
  { resetWith_blockInv s.cfg with }

/-! ### From instructions to turns -/

theorem eq_byteReadyRecord {r : EventRecord} (h : decodeEvent r = .ok .evtByteReady) :
    r = byteReadyRecord := by
  simpa [byteReadyRecord] using decodeEvent_ok h

/-- A turn but reset is bookkeeping, which does not touch the transmitter, and then at most one
instruction; EVT_BYTE_READY only where its record is driven. -/
theorem TurnEffect.bookkeeping_exec {turn : Turn} {s t : State} (h : TurnEffect turn s t)
    (hne : turn ≠ .reset) : ∃ i u, SameTransmitter s u ∧ ExecEffect i u t ∧
      (i = .evtByteReady → turn = .event byteReadyRecord) := by
  have hno {u : State} (hsame : SameTransmitter s u) : ∃ i u', SameTransmitter s u' ∧
      ExecEffect i u' u ∧ (i = .evtByteReady → turn = .event byteReadyRecord) :=
    ⟨.nop, u, hsame, .none .nop u, nofun⟩
  cases h with
  | reset => exact absurd rfl hne
  | command _ _ i hc _ _ _ h =>
    refine ⟨i, nextAccess s, .after_nextAccess (.refl s), h, ?_⟩
    rintro rfl
    cases hc
  | event _ _ r i hd h =>
    refine ⟨i, s, .refl s, h, ?_⟩
    rintro rfl
    rw [eq_byteReadyRecord hd]
  | consumerRead _ idx => exact hno (.after_putRegData (.after_nextAccess (.refl s)) _)
  | observe _ idx => exact hno (.after_putRegData (.refl s) _)
  | _ => exact hno { SameTransmitter.refl s with }

theorem step_bookkeeping_exec {s t : State} (h : step s = .next t)
    (hne : s.schedule.head? ≠ some .reset) : ∃ i u, SameTransmitter s u ∧ ExecEffect i u t ∧
      (i = .evtByteReady → s.schedule.head? = some (.event byteReadyRecord)) := by
  obtain ⟨_, rfl⟩ | ⟨turn, hturn, h⟩ := step_effect h
  · exact ⟨.nop, t, .refl t, .none .nop t, nofun⟩
  · rw [hturn] at hne
    obtain ⟨i, u, hsame, hexec, hready⟩ := h.bookkeeping_exec (hne <| congrArg some ·)
    exact ⟨i, u, { hsame with }, hexec, fun hi => hturn.trans (congrArg some (hready hi))⟩

theorem step_of_head_reset {s : State} (h : s.schedule.head? = some .reset) :
    ∃ rest, step s = .next (applyReset { s with schedule := rest }) := by
  obtain ⟨rest, hsched⟩ := List.head?_eq_some_iff.mp h
  exact ⟨rest, step_of_cons hsched⟩

theorem BlockInv.after_step {s t : State} (hs : BlockInv s) (h : step s = .next t) : BlockInv t := by
  by_cases hreset : s.schedule.head? = some .reset
  · obtain ⟨rest, hstep⟩ := step_of_head_reset hreset
    cases hstep.symm.trans h
    exact applyReset_blockInv _
  · obtain ⟨i, u, hsame, hexec, _⟩ := step_bookkeeping_exec h hreset
    exact (hs.of_sameTransmitter hsame).after_execEffect hexec

/-- Settles O53: reset gives the reset values, and any other turn is bookkeeping and one of the
transmitter's effects, each of which keeps the invariant. -/
theorem everyStepKeepsTheInvariant : Obligations.EveryStepKeepsTheInvariant :=
  fun _ _ hs h => hs.after_step h

theorem BlockInv.after_runSteps {k : Nat} {s t : State} (hs : BlockInv s) (h : runSteps k s = .next t) :
    BlockInv t := by
  induction k generalizing s with
  | zero => cases h; exact hs
  | succ k ih =>
    obtain ⟨u, hu, ht⟩ := runSteps_succ_next h
    exact ih (hs.after_step hu) ht

end Sys2Proof.Machine
end

section
/-! PROOFS. The byte stream of the line (43_transmitter.md R166, R168): no effect but START_SEND adds to it,
a frame leaves the engine whole, and it completes with the transport. -/

namespace Sys2Proof.Machine

/-! ### Each effect on the byte stream -/

theorem unsent_of_idle {s : State} (h : s.txState = .idle) : unsent s = [] := by
  simp only [unsent, h]

theorem unsent_of_sending {s : State} (h : s.txState = .sending) :
    unsent s = (frameOf s).drop s.txCursor.toNat := by
  simp only [unsent, h]

theorem byteStream_of_idle {s : State} (h : s.txState = .idle) :
    byteStream s = s.txLine ++ inFlight s := by
  rw [byteStream, unsent_of_idle h, List.append_nil]

theorem frameOf_length (s : State) : (frameOf s).length = s.cfg.frameLen := memTake_length _ _

theorem SameTransmitter.frameOf_eq {s t : State} (h : SameTransmitter s t) : frameOf t = frameOf s := by
  rw [frameOf, frameOf, h.pkt, h.cfg]

theorem SameTransmitter.byteStream_eq {s t : State} (h : SameTransmitter s t) :
    byteStream t = byteStream s := by
  simp only [byteStream, inFlight, unsent, h.frameOf_eq, h.txLine, h.txEmpty, h.txHold, h.txState,
    h.txCursor]

/-- 42_framer.md R141: BUILD in Idle writes a packet of which no byte is owed. -/
theorem byteStream_build {s : State} (hi : s.txState = .idle) :
    byteStream (storeFrame (markBuildBusy s)) = byteStream s := by
  rw [byteStream_of_idle hi, byteStream_of_idle (by simpa using hi), markBuildBusy_eq]
  rfl

theorem byteStream_startFrame {s : State} (hi : s.txState = .idle) (he : s.txEmpty = true) :
    byteStream (startFrame s) = byteStream s ++ frameOf s := by
  have hframe : frameOf s = memRead s.pkt 0 :: (frameOf s).drop 1 :=
    memTake_succ_drop s.pkt (k := 0) (Nat.lt_of_lt_of_le (by decide) s.cfg.six_le_frameLen)
  rw [byteStream_of_idle hi, inFlight_of_empty he, List.append_nil, hframe]
  exact List.append_assoc s.txLine [memRead s.pkt 0] _

theorem byteStream_takeByte {s : State} (he : s.txEmpty = false) :
    byteStream (takeByte s) = byteStream s :=
  congrArg (· ++ unsent s) (txLine_inFlight_takeByte he)

section
variable {s : State} (hs : BlockInv s) (hi : s.txie = true)
include hs hi

theorem unsent_sendNextByte :
    unsent (sendNextByte s) = (frameOf s).drop (s.txCursor.toNat + 1) := by
  obtain hc | hc := hs.cursor_cases
  · rw [sendNextByte_of_lt hc, ← cursor_succ (cursor_lt_eight hc.le)]
    exact unsent_of_sending (hs.notify.mp hi)
  · rw [sendNextByte_of_last hc, hc, ← frameOf_length s, List.drop_length]
    exact unsent_of_idle rfl

theorem byteStream_sendNextByte (he : s.txEmpty = true) :
    byteStream (sendNextByte s) = byteStream s := by
  have hsent : byteStream (sendNextByte s) =
      s.txLine ++ [memRead s.pkt s.txCursor.toNat] ++ unsent (sendNextByte s) := by
    simp [byteStream, inFlight, sendNextByte]
  rw [hsent, unsent_sendNextByte hs hi, byteStream, inFlight_of_empty he,
    unsent_of_sending (hs.notify.mp hi), frameOf, memTake_succ_drop _ hs.cursor_lt_frameLen]
  simp

end

/-! ### A step on the byte stream -/

/-- The byte stream is kept and no frame starts, or a frame starts and the stream gains its bytes. -/
def ConservesStream (s t : State) : Prop :=
  (byteStream t = byteStream s ∧ ¬ (s.txState = .idle ∧ t.txState = .sending)) ∨
  (s.txState = .idle ∧ t.txState = .sending ∧ byteStream t = byteStream s ++ frameOf s)

theorem conservesStream_of_kept {s t : State} (hstream : byteStream t = byteStream s)
    (hstate : t.txState = s.txState) : ConservesStream s t :=
  .inl ⟨hstream, fun ⟨hi, hsending⟩ => nomatch hi.symm.trans (hstate.symm.trans hsending)⟩

theorem ExecEffect.conservesStream {i : Instr} {s t : State} (h : ExecEffect i s t) (hs : BlockInv s)
    (hbusy : t.errBuildBusy = false) : ConservesStream s t := by
  cases h.transmitter with
  | kept _ hsame => exact conservesStream_of_kept hsame.byteStream_eq hsame.txState
  | build =>
    have hi : s.txState = .idle := by
      cases htx : s.txState with
      | idle => rfl
      | sending => simp [htx] at hbusy
    exact conservesStream_of_kept (byteStream_build hi) (by simp)
  | start hi he => exact .inr ⟨hi, rfl, byteStream_startFrame hi he⟩
  | sendNext hi he =>
    exact .inl ⟨byteStream_sendNextByte hs hi he,
      fun ⟨hidle, _⟩ => nomatch hidle.symm.trans (hs.notify.mp hi)⟩
  | take he => exact conservesStream_of_kept (byteStream_takeByte he) rfl

/-- The turn's bookkeeping does not touch the stream, so a step is as good as its instruction. -/
theorem step_conservesStream {s t : State} (hs : BlockInv s) (h : step s = .next t)
    (hne : s.schedule.head? ≠ some .reset) (hbusy : t.errBuildBusy = false) : ConservesStream s t := by
  obtain ⟨i, u, hsame, hexec, _⟩ := step_bookkeeping_exec h hne
  have hu := hexec.conservesStream (hs.of_sameTransmitter hsame) hbusy
  rwa [ConservesStream, hsame.byteStream_eq, hsame.txState, hsame.frameOf_eq] at hu

/-- Settles O55: of the transmitter's effects only START_SEND adds to the stream, and ERR_BUILD_BUSY = 0
leaves BUILD to Idle. -/
theorem everyStepConservesTheByteStream : Obligations.EveryStepConservesTheByteStream :=
  fun _ _ => step_conservesStream

/-! ### A whole frame -/

theorem step_errBuildBusy_before {s t : State} (h : step s = .next t)
    (hne : s.schedule.head? ≠ some .reset) (hbusy : t.errBuildBusy = false) :
    s.errBuildBusy = false := by
  obtain ⟨_, hkept, _⟩ := step_keepsSticky h hne
  exact eq_false_of_ne_true fun hb => ne_true_of_eq_false hbusy (hkept hb)

/-- Through steps from Sending states, none a reset, the byte stream stays as it is. -/
theorem runSteps_sending_byteStream {k : Nat} {s t : State} (hs : BlockInv s)
    (hsending : ∀ n, n < k → ∃ u, runSteps n s = .next u ∧ u.txState = .sending ∧
      u.schedule.head? ≠ some .reset)
    (h : runSteps k s = .next t) (hbusy : t.errBuildBusy = false) :
    byteStream t = byteStream s ∧ s.errBuildBusy = false := by
  induction k generalizing t with
  | zero => cases h; exact ⟨rfl, hbusy⟩
  | succ k ih =>
    obtain ⟨u, hu, ht⟩ := runSteps_last h
    obtain ⟨u', hu', htx, hne⟩ := hsending k (Nat.lt_succ_self k)
    cases hu.symm.trans hu'
    obtain ⟨hstream, hbusy0⟩ := ih (fun n hn => hsending n (Nat.lt_succ_of_lt hn)) hu
      (step_errBuildBusy_before ht hne hbusy)
    obtain ⟨hkept, _⟩ | ⟨hidle, _⟩ :=
      step_conservesStream (hs.after_runSteps hu) ht hne hbusy
    · exact ⟨hkept.trans hstream, hbusy0⟩
    · cases htx.symm.trans hidle

theorem head?_ne_reset_of_step_sending {s t : State} (h : step s = .next t)
    (htx : t.txState = .sending) : s.schedule.head? ≠ some .reset := by
  intro hreset
  obtain ⟨rest, hstep⟩ := step_of_head_reset hreset
  cases hstep.symm.trans h
  cases htx

theorem BlockInv.txie_of_idle {s : State} (hs : BlockInv s) (hidle : s.txState = .idle) :
    s.txie = false := by
  refine eq_false_of_ne_true fun hi => ?_
  cases hidle.symm.trans (hs.notify.mp hi)

/-- Settles O56: the first step appends the frame to the byte stream, the steps in Sending keep it, and
in Idle the stream is what has been emitted. -/
theorem frameIsEmittedWholeAndInOrder : Obligations.FrameIsEmittedWholeAndInOrder := by
  intro k s s1 t hs hstep hidle hs1 hsending hrun hti hbusy
  have hinv1 : BlockInv s1 := hs.after_step hstep
  have hinvt : BlockInv t := hinv1.after_runSteps hrun
  obtain ⟨hstream, hbusy1⟩ := runSteps_sending_byteStream hinv1 hsending hrun hbusy
  have hstart : byteStream s1 = byteStream s ++ frameOf s := by
    obtain ⟨_, hno⟩ | ⟨_, _, hframe⟩ := step_conservesStream hs hstep
      (head?_ne_reset_of_step_sending hstep hs1) hbusy1
    · exact absurd ⟨hidle, hs1⟩ hno
    · exact hframe
  have hline : t.txLine ++ inFlight t = s.txLine ++ inFlight s ++ frameOf s := by
    rw [← byteStream_of_idle hti, hstream, hstart, byteStream_of_idle hidle]
  refine ⟨hinvt.txie_of_idle hti, ?_, hline⟩
  rw [hinvt.lossless, hs.lossless, hline]

/-! ### Completion with the transport -/

/-- u is s after the transport has put its byte on the line and the engine has emitted the next one; rest
are the turns then to come. -/
structure RoundDone (rest : List Turn) (s u : State) : Prop where
  cfg : u.cfg = s.cfg
  halted : u.halted = s.halted
  txEmpty : u.txEmpty = false
  schedule : u.schedule = rest
  sameFaults : faulted u = faulted s
  stream : byteStream u = byteStream s
  engine : (u.txState = .sending ∧ u.txCursor.toNat = s.txCursor.toNat + 1) ∨
    (u.txState = .idle ∧ s.txCursor.toNat + 1 = s.cfg.frameLen)

section
variable {s : State} (hs : BlockInv s) (htx : s.txState = .sending) (he : s.txEmpty = false)
include hs htx he

theorem roundDone_sendNextByte_takeByte (rest : List Turn) :
    RoundDone rest s (sendNextByte (takeByte { s with schedule := rest })) where
  cfg := by simp [sendNextByte, takeByte]
  halted := by simp [sendNextByte, takeByte]
  txEmpty := by simp [sendNextByte]
  schedule := by simp [sendNextByte, takeByte]
  sameFaults := by simp [faulted, sendNextByte, takeByte]
  stream :=
    have hs' : BlockInv { s with schedule := rest } := { hs with }
    calc byteStream (sendNextByte (takeByte { s with schedule := rest }))
      _ = byteStream (takeByte { s with schedule := rest }) :=
          byteStream_sendNextByte (hs'.after_takeByte he) (hs.notify.mpr htx) rfl
      _ = byteStream s := byteStream_takeByte he
  engine := by
    obtain hc | hc := hs.cursor_cases
    · rw [sendNextByte_of_lt (s := takeByte { s with schedule := rest }) hc]
      exact .inl ⟨htx, cursor_succ (cursor_lt_eight hc.le)⟩
    · rw [sendNextByte_of_last (s := takeByte { s with schedule := rest }) hc]
      exact .inr ⟨rfl, hc⟩

theorem runSteps_transportRound (hh : s.halted = false) {rest : List Turn}
    (hsched : s.schedule = .event txTakeRecord :: .event byteReadyRecord :: rest) :
    ∃ u, runSteps 2 s = .next u ∧ RoundDone rest s u := by
  have htake : step s = .next (takeByte { s with schedule := .event byteReadyRecord :: rest }) :=
    (step_of_event hsched decodeEvent_txTakeRecord).trans (exec_evtTxTake_of_full he)
  have hready : step (takeByte { s with schedule := .event byteReadyRecord :: rest }) =
      .next (sendNextByte (takeByte { s with schedule := rest })) :=
    (step_of_event rfl decodeEvent_byteReadyRecord).trans
      (exec_evtByteReady_of_lt_eight (s := takeByte { s with schedule := rest }) (hs.notify.mpr htx)
        rfl hh (cursor_lt_eight hs.cursor_lt_frameLen))
  exact ⟨_, (runSteps_succ 1 htake).trans (runSteps_succ 0 hready),
    roundDone_sendNextByte_takeByte hs htx he rest⟩

end

/-- By induction on the bytes still to be emitted: as many rounds take the engine to Idle. -/
theorem runSteps_transportRounds {n : Nat} {s : State} (hs : BlockInv s) (htx : s.txState = .sending)
    (he : s.txEmpty = false) (hh : s.halted = false) (hn : s.cfg.frameLen - s.txCursor.toNat = n)
    {rest : List Turn} (hsched : s.schedule = transportRounds n ++ rest) :
    ∃ t, runSteps (2 * n) s = .next t ∧ t.txState = .idle ∧ t.schedule = rest ∧
      faulted t = faulted s ∧ byteStream t = byteStream s := by
  induction n generalizing s with
  | zero => exact absurd hs.cursor_lt_frameLen (by omega)
  | succ n ih =>
    obtain ⟨u, hu, hround⟩ := runSteps_transportRound hs htx he hh hsched
    rw [Nat.mul_succ, Nat.add_comm, runSteps_add (2 * n) hu]
    obtain ⟨hsending, hcursor⟩ | ⟨hidle, hlast⟩ := hround.engine
    · obtain ⟨t, ht, hidle, hrest, hfault, hstream⟩ := ih (hs.after_runSteps hu) hsending hround.txEmpty
        (hround.halted.trans hh) (by rw [hround.cfg, hcursor]; omega) hround.schedule
      exact ⟨t, ht, hidle, hrest, hfault.trans hround.sameFaults, hstream.trans hround.stream⟩
    · obtain rfl : n = 0 := by omega
      exact ⟨u, rfl, hidle, hround.schedule, hround.sameFaults, hround.stream⟩

/-- 43_transmitter.md R168: EVT_BYTE_READY alone takes the engine from Sending to Idle. -/
theorem ExecEffect.sending_kept {i : Instr} {s t : State} (h : ExecEffect i s t)
    (hi : i ≠ .evtByteReady) (htx : s.txState = .sending) : t.txState = .sending := by
  cases h.transmitter with
  | kept _ hsame => exact hsame.txState.trans htx
  | build => simpa using htx
  | start => rfl
  | sendNext => exact absurd rfl hi
  | take => exact htx

/-- Settles O57: the rounds run by induction, and a step that carries no byte-ready is bookkeeping and an
instruction that keeps Sending. -/
theorem frameCompletesWithTheTransport : Obligations.FrameCompletesWithTheTransport := by
  refine ⟨fun s rest hs hh htx he hsched => ?rounds, fun s t _ h htx hreset hready => ?step⟩
  case rounds =>
    obtain ⟨t, ht, hidle, hrest, hfault, hstream⟩ := runSteps_transportRounds hs htx he hh rfl hsched
    have hinv := hs.after_runSteps ht
    exact ⟨t, ht, hidle, hinv.txie_of_idle hidle, hinv.idleCursor hidle, hrest, hfault,
      fun _ => (byteStream_of_idle hidle).symm.trans hstream⟩
  case step =>
    obtain ⟨i, u, hsame, hexec, hbyte⟩ := step_bookkeeping_exec h hreset
    exact hexec.sending_kept (fun hi => hready (hbyte hi)) (hsame.txState.trans htx)

end Sys2Proof.Machine
end

section
/-! PROOFS. The handoff (44_handoff.md): what the handoff's commands and events do, what ends a consumer
wait, that no pair of codes is torn, and the sampling cycle. -/

namespace Sys2Proof.Machine

/-! ### The commands -/

/-- Settles O1: NOP's effect is the state itself, so its guard makes no difference. -/
theorem nopChangesNothing : Obligations.NopChangesNothing :=
  ⟨rfl, fun s => ⟨enabled_command_iff (i := .nop) rfl nofun s, ite_self _⟩⟩

/-- What CONSUME does with READY = 1 (44_handoff.md R182). -/
def latchSamples (s : State) : State :=
  { s with consumed := true, sampleI := s.rawI, sampleV := s.rawV, ready := false }

theorem exec_consume_empty {s : State} (hact : mayAct s) (hr : s.ready = false) :
    exec .consume s = .next { s with consumed := false } :=
  (whenEnabled_unlessHalted_of_mayAct (i := .consume) hact
    (enabled_command_of_mayAct rfl nofun hact) _).trans (if_neg (ne_true_of_eq_false hr))

/-- Settles O2: blocked, CONSUME has no effect; otherwise READY picks one of its two equations. -/
theorem consumeSnapshotsAndClearsReady : Obligations.ConsumeSnapshotsAndClearsReady :=
  ⟨rfl, fun s => ⟨enabled_command_iff (i := .consume) rfl nofun s, exec_command_of_blocked rfl,
    exec_consume_ready, exec_consume_empty⟩⟩

theorem exec_wfi_of_mayAct {s : State} (hact : mayAct s) :
    exec .wfi s = .next { s with waiting := true } :=
  whenEnabled_unlessHalted_of_mayAct (i := .wfi) hact (enabled_command_of_mayAct rfl nofun hact) _

/-- Settles O16: WFI sets WAITING, which is in the guard of every command. -/
theorem wfiWaitsForTheNextEvent : Obligations.WfiWaitsForTheNextEvent :=
  ⟨rfl,
    fun s => ⟨enabled_command_iff (i := .wfi) rfl nofun s, exec_command_of_blocked rfl,
      exec_wfi_of_mayAct⟩,
    fun _ _ hw hc => enabled_command_of_waiting hc hw⟩

/-! ### The events -/

/-- What EVT_TRIG does with CONV_BUSY = 0 (44_handoff.md R187). -/
def startConversion (s : State) : State := wake (convStart { s with convBusy := true })

/-- What EVT_CONV_DONE does with CONV_BUSY = 1 (44_handoff.md R188). -/
def commitCodes (codeI codeV : Code) (s : State) : State :=
  wake { s with rawI := codeI, rawV := codeV, ready := true, convBusy := false }

theorem txStrobes_wakeStrobe (s : State) : txStrobes (wakeStrobe s) = [] := by
  simp only [wakeStrobe]
  split <;> rfl

theorem convStarts_wakeStrobe (s : State) : convStarts (wakeStrobe s) = 0 := by
  simp only [wakeStrobe]
  split <;> rfl

theorem startConversion_eq (s : State) :
    startConversion s = { s with
      convBusy := true, waiting := false
      outputs := s.outputs ++ .convStart :: wakeStrobe s } := by
  rw [startConversion, wake_eq]
  simp only [convStart_outputs, List.append_assoc, List.singleton_append]
  rfl

theorem unlessHalted_of_halted {s : State} (hh : s.halted = true) (f : State → Outcome) :
    unlessHalted s f = .next s := if_pos hh

theorem unlessHalted_of_running {s : State} (hh : s.halted = false) (f : State → Outcome) :
    unlessHalted s f = f s := if_neg (ne_true_of_eq_false hh)

/-- An event of the handoff has no guard: it acts on a waiting block too. -/
theorem exec_evtTrig_eq (s : State) :
    exec .evtTrig s =
      unlessHalted s fun s => if s.convBusy then .next (wake s) else .next (startConversion s) := rfl

theorem exec_evtConvDone_eq (codeI codeV : Code) (s : State) :
    exec (.evtConvDone codeI codeV) s =
      unlessHalted s fun s =>
        if s.convBusy then .next (commitCodes codeI codeV s) else .next s := rfl

section
variable {s : State} (hh : s.halted = false)
include hh

theorem exec_evtTrig_of_free (hb : s.convBusy = false) :
    exec .evtTrig s = .next (startConversion s) := by
  rw [exec_evtTrig_eq, unlessHalted_of_running hh, if_neg (ne_true_of_eq_false hb)]

theorem exec_evtTrig_of_busy (hb : s.convBusy = true) : exec .evtTrig s = .next (wake s) := by
  rw [exec_evtTrig_eq, unlessHalted_of_running hh, if_pos hb]

theorem exec_evtConvDone_of_free (hb : s.convBusy = false) (codeI codeV : Code) :
    exec (.evtConvDone codeI codeV) s = .next s := by
  rw [exec_evtConvDone_eq, unlessHalted_of_running hh, if_neg (ne_true_of_eq_false hb)]

end

/-- Settles O17: the strobes are a wake's, behind one conv_start pulse where a conversion starts. -/
theorem triggerRule : Obligations.TriggerRule := by
  refine ⟨rfl, fun s => ⟨rfl,
    fun hh => (exec_evtTrig_eq s).trans (unlessHalted_of_halted hh _),
    fun hh hb => ?free, fun hh hb => ?busy⟩⟩
  case free =>
    refine ⟨.convStart :: wakeStrobe s, ?_, congrArg (· + 1) (convStarts_wakeStrobe s),
      txStrobes_wakeStrobe s⟩
    rw [exec_evtTrig_of_free hh hb, startConversion_eq]
  case busy =>
    refine ⟨wakeStrobe s, ?_, convStarts_wakeStrobe s, txStrobes_wakeStrobe s⟩
    rw [exec_evtTrig_of_busy hh hb, wake_eq]

/-- Settles O18: an accepted completion is `commitCodes`, whose strobes are a wake's; READY is in no
guard. -/
theorem conversionDoneRule : Obligations.ConversionDoneRule := by
  refine fun s codeI codeV => ⟨rfl, rfl,
    fun hh => (exec_evtConvDone_eq codeI codeV s).trans (unlessHalted_of_halted hh _),
    fun hh hb => exec_evtConvDone_of_free hh hb codeI codeV, fun hh hb => ?accepted⟩
  case accepted =>
    refine ⟨wakeStrobe s, ?_, convStarts_wakeStrobe s, txStrobes_wakeStrobe s⟩
    rw [exec_evtConvDone_accepted hh hb, wake_eq]
    rfl

/-! ### What ends a wait -/

/-- 44_handoff.md R185: the instruction ends a wait pending in s. -/
def EndsWait (i : Instr) (s : State) : Prop :=
  s.halted = false ∧
    (i = .evtTrig ∨
      (∃ codeI codeV, i = .evtConvDone codeI codeV ∧ s.convBusy = true) ∨
      (i = .evtByteReady ∧ s.txie = true ∧ s.txEmpty = true))

theorem ExecEffect.waiting_kept_or_endsWait {i : Instr} {s t : State} (h : ExecEffect i s t)
    (hw : s.waiting = true) : t.waiting = true ∨ EndsWait i s := by
  cases h with
  | trigStart _ hh => exact .inr ⟨hh, .inl rfl⟩
  | trigBusy _ hh => exact .inr ⟨hh, .inl rfl⟩
  | convDone _ codeI codeV hh hb => exact .inr ⟨hh, .inr (.inl ⟨codeI, codeV, rfl, hb⟩)⟩
  | byteReady _ hh hi he => exact .inr ⟨hh, .inr (.inr ⟨rfl, hi, he⟩)⟩
  | wfi => exact .inl rfl
  | _ => left; simpa using hw

/-- Each of these transitions ends in a wake. -/
theorem exec_of_endsWait {i : Instr} {s : State} (hs : BlockInv s) (h : EndsWait i s) :
    ∃ u, exec i s = .next (wake u) := by
  obtain ⟨hh, rfl | ⟨codeI, codeV, rfl, hb⟩ | ⟨rfl, hi, he⟩⟩ := h
  · cases hb : s.convBusy
    · exact ⟨_, exec_evtTrig_of_free hh hb⟩
    · exact ⟨_, exec_evtTrig_of_busy hh hb⟩
  · exact ⟨_, exec_evtConvDone_accepted hh hb codeI codeV⟩
  · exact ⟨_, exec_evtByteReady_of_lt_eight hi he hh (cursor_lt_eight hs.cursor_lt_frameLen)⟩

theorem wake_of_not_waiting {s : State} (h : s.waiting = false) : wake s = s := by
  rw [wake_eq, wakeStrobe, h, if_neg Bool.false_ne_true, List.append_nil, ← h]

/-- Settles O46: the effects other than `EndsWait` leave a pending wait, and those under it are wakes. -/
theorem onlyWakingEventsEndTheWait : Obligations.OnlyWakingEventsEndTheWait := by
  refine ⟨fun i s hs hw => ?_, fun s => wake_of_not_waiting⟩
  obtain ⟨t, ht⟩ := exec_answers (hs.not_sendsBeyondPacket i)
  refine ⟨t, ht, fun hwt => ?ends, fun hends => ?woken⟩
  case ends =>
    exact ((exec_effect ht).waiting_kept_or_endsWait hw).resolve_left (ne_true_of_eq_false hwt)
  case woken =>
    obtain ⟨u, hu⟩ := exec_of_endsWait hs hends
    cases ht.symm.trans hu
    rfl

/-! ### The pairs of codes -/

/-- The pairs of codes in RAW and in SAMPLE have a property. -/
def PairsHave (P : Code → Code → Prop) (s : State) : Prop :=
  P s.rawI s.rawV ∧ P s.sampleI s.sampleV

theorem eq_convDoneRecord {r : EventRecord} {codeI codeV : Code}
    (h : decodeEvent r = .ok (.evtConvDone codeI codeV)) : r = convDoneRecord codeI codeV :=
  (Encoded.event.inj (encode_of_decodeEvent h)).symm

section
variable {P : Code → Code → Prop} {s t : State} (hs : PairsHave P s)
include hs

/-- A pair is written as a whole: RAW from a completion, SAMPLE from RAW. -/
theorem ExecEffect.keeps_pairs {i : Instr} (h : ExecEffect i s t)
    (hnew : ∀ codeI codeV, i = .evtConvDone codeI codeV → P codeI codeV) : PairsHave P t := by
  obtain ⟨hraw, hsample⟩ := hs
  constructor
  · obtain ⟨hI, hV⟩ | ⟨codeI, codeV, hi, hI, hV⟩ := h.raw_kept_or_convDone
    · rwa [hI, hV]
    · rw [hI, hV]
      exact hnew codeI codeV hi
  · obtain ⟨hI, hV⟩ | ⟨_, _, hI, hV⟩ := h.sample_kept_or_consume
    · rwa [hI, hV]
    · rwa [hI, hV]

theorem TurnEffect.keeps_pairs {turn : Turn} (h : TurnEffect turn s t) (hreset : P 0#16 0#16)
    (hnew : ∀ codeI codeV, turn = .event (convDoneRecord codeI codeV) → P codeI codeV) :
    PairsHave P t := by
  cases h with
  | command _ _ i hc _ _ _ h =>
    refine h.keeps_pairs (s := nextAccess s) hs fun codeI codeV hi => ?_
    rw [hi] at hc
    cases hc
  | event _ _ r i hd h =>
    refine h.keeps_pairs hs fun codeI codeV hi => hnew codeI codeV ?_
    rw [hi] at hd
    rw [eq_convDoneRecord hd]
  | reset => exact ⟨hreset, hreset⟩
  | _ => exact hs

end

/-- Settles O59: every turn keeps `PairsHave P`, since reset and a completion write pairs that have P. -/
theorem noTornPairOfCodes : Obligations.NoTornPairOfCodes := by
  intro P s t hreset hraw hsample hnew h
  obtain ⟨_, rfl⟩ | ⟨turn, hturn, h⟩ := step_effect h
  · exact ⟨hraw, hsample⟩
  · exact h.keeps_pairs (s := dropTurn s) ⟨hraw, hsample⟩ hreset
      fun codeI codeV hev => hnew codeI codeV (hev ▸ hturn)

/-! ### The sampling cycle -/

/-- s after a trigger, its completion, and the CONSUME that latches its codes. -/
def sampled (codeI codeV : Code) (s : State) : State :=
  latchSamples (commitCodes codeI codeV (startConversion s))

/-- s after the cycle of 44_handoff.md R190 up to CONV_V. -/
def convertedSample (codeI codeV : Code) (s : State) : State :=
  setVoltage codeV (setCurrent codeI (sampled codeI codeV s))

/-- s after BUILD and START_SEND (43_transmitter.md R161). -/
def frameSent (s : State) : State := startFrame (storeFrame (markBuildBusy s))

theorem sameTransmitter_convertedSample (codeI codeV : Code) (s : State) :
    SameTransmitter s (convertedSample codeI codeV s) :=
  have hstart : SameTransmitter s (startConversion s) :=
    .after_wake (.after_convStart { SameTransmitter.refl s with })
  have hcommit : SameTransmitter s (commitCodes codeI codeV (startConversion s)) :=
    .after_wake { hstart with }
  { hcommit with }

section
variable {s : State} (hh : s.halted = false) (codeI codeV : Code)
include hh

theorem mayAct_sampled : mayAct (sampled codeI codeV s) := ⟨rfl, hh⟩

/-- 44_handoff.md R187, R188, R182: the completion answers the trigger, and CONSUME finds READY = 1. -/
theorem exec_to_sampled (hb : s.convBusy = false) :
    ∃ s1 s2, exec .evtTrig s = .next s1 ∧ exec (.evtConvDone codeI codeV) s1 = .next s2 ∧
      exec .consume s2 = .next (sampled codeI codeV s) :=
  ⟨_, _, exec_evtTrig_of_free hh hb,
    exec_evtConvDone_accepted (s := startConversion s) hh rfl codeI codeV,
    exec_consume_ready (s := commitCodes codeI codeV (startConversion s)) ⟨rfl, hh⟩ rfl⟩

/-- 40_converter.md R105, R106: the conversions read the latched codes. -/
theorem exec_to_convertedSample :
    ∃ s4, exec .convI (sampled codeI codeV s) = .next s4 ∧
      exec .convV s4 = .next (convertedSample codeI codeV s) :=
  ⟨_, exec_convI_of_mayAct (mayAct_sampled hh codeI codeV),
    exec_convV_of_mayAct (s := setCurrent codeI (sampled codeI codeV s))
      (mayAct_sampled hh codeI codeV)⟩

end

section
variable {s : State} (hraw : s.cfg.sendRaw = false) (hdebug : s.cfg.fixedDebugFields = false)
  (codeI codeV : Code)
include hraw hdebug

/-- 40_converter.md R101, 42_framer.md R142: of the 32-bit result the frame takes the low 16 bits. -/
theorem currentField_convertedSample :
    currentField (convertedSample codeI codeV s) = BitVec.ofNat 16 (rawToCurrent s.cfg codeI) :=
  (if_neg (ne_true_of_eq_false hdebug)).trans <| (if_neg (ne_true_of_eq_false hraw)).trans <|
    BitVec.setWidth_ofNat_of_le (by decide) _

/-- 40_converter.md R102, 42_framer.md R142. -/
theorem voltageField_convertedSample :
    voltageField (convertedSample codeI codeV s) = BitVec.ofNat 16 (rawToVoltage s.cfg codeV) :=
  (if_neg (ne_true_of_eq_false hdebug)).trans <| (if_neg (ne_true_of_eq_false hraw)).trans <|
    BitVec.setWidth_ofNat_of_le (by decide) _

end

theorem frameOf_build {s : State} (hwf : s.pkt.wf = true) :
    frameOf (storeFrame (markBuildBusy s)) = frameBytes s.cfg (currentField s) (voltageField s) := by
  rw [markBuildBusy_eq]
  exact memTake_storedFrame hwf s.cfg _ _

section
variable {s : State} (hi : s.txState = .idle)
include hi

theorem errBuildBusy_frameSent : (frameSent s).errBuildBusy = s.errBuildBusy := by
  simp [frameSent, startFrame, hi]

theorem faulted_frameSent : faulted (frameSent s) = faulted s := by
  rw [faulted, faulted, errBuildBusy_frameSent hi]
  simp [frameSent, startFrame]

theorem exec_to_frameSent (hact : mayAct s) (he : s.txEmpty = true) :
    ∃ s6, exec .build s = .next s6 ∧ exec .startSend s6 = .next (frameSent s) :=
  ⟨_, exec_build_of_mayAct hact,
    exec_startSend_of_idle (by simpa [mayAct] using hact) (by simpa using hi) (by simpa using he)⟩

theorem byteStream_frameSent (he : s.txEmpty = true) (hwf : s.pkt.wf = true) :
    byteStream (frameSent s) =
      byteStream s ++ frameBytes s.cfg (currentField s) (voltageField s) :=
  calc byteStream (frameSent s)
    _ = byteStream (storeFrame (markBuildBusy s)) ++ frameOf (storeFrame (markBuildBusy s)) :=
        byteStream_startFrame (by simpa using hi) (by simpa using he)
    _ = _ := by rw [byteStream_build hi, frameOf_build hwf]

end

/-- Settles O60: up to CONV_V the cycle leaves the transmitter as it is, and BUILD and START_SEND owe the
line the frame of the converted fields. -/
theorem samplingCycleSendsTheConvertedFrame : Obligations.SamplingCycleSendsTheConvertedFrame := by
  intro s codeI codeV cf vf hs hh hb hi he hraw hdebug hcf hvf
  have hsame := sameTransmitter_convertedSample codeI codeV s
  have hidle := hsame.txState.trans hi
  have hempty := hsame.txEmpty.trans he
  obtain ⟨s1, s2, htrig, hdone, hconsume⟩ := exec_to_sampled hh codeI codeV hb
  obtain ⟨s4, hconvI, hconvV⟩ := exec_to_convertedSample hh codeI codeV
  obtain ⟨s6, hbuild, hstart⟩ := exec_to_frameSent hidle (mayAct_sampled hh codeI codeV) hempty
  refine ⟨s1, s2, _, s4, _, s6, _, htrig, hdone, hconsume, rfl, hconvI, hconvV, hbuild, hstart, rfl,
    errBuildBusy_frameSent hidle, faulted_frameSent hidle, fun _ => ?stream⟩
  case stream =>
    have hcurrent : currentField (convertedSample codeI codeV s) = cf :=
      (currentField_convertedSample hraw hdebug codeI codeV).trans hcf.symm
    have hvoltage : voltageField (convertedSample codeI codeV s) = vf :=
      (voltageField_convertedSample hraw hdebug codeI codeV).trans hvf.symm
    rw [byteStream_frameSent hidle hempty (hsame.pkt ▸ hs.canonical), hsame.byteStream_eq, hcurrent,
      hvoltage, List.append_assoc]
    rfl

end Sys2Proof.Machine
end

section
/-! PROOFS. Exceptions (60_exceptions.md): the hardware fault and the halt, where the wake port strobes,
and the level of a byte-ready. -/

namespace Sys2Proof.Machine

/-! ### EVT_FAULT -/

theorem raise_fault (s : State) : raise .fault s = { s with halted := true } := by
  simp [raise]

/-- Settles O21: EVT_FAULT has no guard, and its effect is to raise the cause that is HALTED. -/
theorem faultEventHaltsTheBlock : Obligations.FaultEventHaltsTheBlock :=
  ⟨rfl, fun s => ⟨rfl, congrArg Host.Outcome.next (raise_fault s)⟩⟩

/-! ### While halted -/

/-- Of the effects, only the transport's take and a second fault do not need HALTED = 0. -/
theorem ExecEffect.eq_of_halted {i : Instr} {s t : State} (h : ExecEffect i s t)
    (hh : s.halted = true) (hi : i ≠ .evtTxTake) : t = s := by
  cases h with
  | none => rfl
  | fault => rw [raise_fault, ← hh]
  | txTake => exact absurd rfl hi
  | _ => cases ‹s.halted = false›.symm.trans hh

/-- 60_exceptions.md R215, for the events too. -/
theorem exec_of_halted {i : Instr} {s : State} (hh : s.halted = true) (hi : i ≠ .evtTxTake) :
    exec i s = .next s := by
  have hrunning : ¬ sendsBeyondPacket i s := fun ⟨_, hh', _⟩ => ne_true_of_eq_false hh' hh
  obtain ⟨t, ht⟩ := exec_answers hrunning
  rw [ht, (exec_effect ht).eq_of_halted hh hi]

theorem eq_txTakeRecord {r : EventRecord} (h : decodeEvent r = .ok .evtTxTake) : r = txTakeRecord :=
  (Encoded.event.inj (encode_of_decodeEvent h)).symm

/-- Nothing of the block changes from s to t, and the strobes added are register values of s. -/
def OnlyReads (s t : State) : Prop :=
  sameBlock s t ∧ ∃ os, t.outputs = s.outputs ++ os ∧ ∀ o ∈ os, ∃ idx, o = .regData (regRead s idx)

theorem onlyReads_of_sameOutputs {s t : State} (hblock : sameBlock s t) (hout : t.outputs = s.outputs) :
    OnlyReads s t :=
  ⟨hblock, [], hout.trans (List.append_nil _).symm, List.forall_mem_nil _⟩

theorem onlyReads_of_read {s t : State} (hblock : sameBlock s t) (idx : RegIdx)
    (hout : t.outputs = s.outputs ++ [.regData (regRead s idx)]) : OnlyReads s t :=
  ⟨hblock, _, hout, List.forall_mem_singleton.mpr ⟨idx, rfl⟩⟩

theorem TurnEffect.onlyReads_of_halted {turn : Turn} {s t : State} (h : TurnEffect turn s t)
    (hh : s.halted = true) (hreset : turn ≠ .reset) (htake : turn ≠ .event txTakeRecord) :
    OnlyReads s t := by
  cases h with
  | stay => exact onlyReads_of_sameOutputs rfl rfl
  | issued => exact onlyReads_of_sameOutputs rfl rfl
  | consumerRead _ idx => exact onlyReads_of_read rfl idx rfl
  | observe _ idx => exact onlyReads_of_read rfl idx rfl
  | illegal _ _ hh' => exact absurd hh (ne_true_of_eq_false hh')
  | command _ _ _ _ _ _ hh' => exact absurd hh (ne_true_of_eq_false hh')
  | event _ _ r i hd h =>
    have hi : i ≠ .evtTxTake := by
      rintro rfl
      exact htake (congrArg Turn.event (eq_txTakeRecord hd))
    rw [h.eq_of_halted hh hi]
    exact onlyReads_of_sameOutputs rfl rfl
  | reset => exact absurd rfl hreset

theorem step_onlyReads_of_halted {s t : State} (h : step s = .next t) (hh : s.halted = true)
    (hreset : s.schedule.head? ≠ some .reset)
    (htake : s.schedule.head? ≠ some (.event txTakeRecord)) : OnlyReads s t := by
  obtain ⟨_, rfl⟩ | ⟨turn, hturn, h⟩ := step_effect h
  · exact onlyReads_of_sameOutputs rfl rfl
  · rw [hturn] at hreset htake
    exact h.onlyReads_of_halted hh (hreset <| congrArg some ·) (htake <| congrArg some ·)

/-- Settles O22: HALTED is sticky, the transport's take does not ask for it, and every other effect of an
instruction needs HALTED = 0 or is to set it again. -/
theorem haltedBlockTakesNothing : Obligations.HaltedBlockTakesNothing := by
  refine fun s hh => ⟨fun _ => exec_of_halted hh, exec_evtTxTake_of_full, fun t h hreset => ?sticky,
    fun t h => step_onlyReads_of_halted h hh⟩
  case sticky =>
    obtain ⟨_, _, hhalted⟩ := step_keepsSticky h hreset
    exact hhalted hh

/-! ### The wake port -/

theorem wakes_wake (s : State) :
    wakes (wake s).outputs = wakes s.outputs + if s.waiting = true then 1 else 0 := by
  rw [wake_outputs]
  split
  · exact wakes_append _ _
  · rfl

/-- An instruction leaves a pending wait and strobes no wake, or ends in a wake that finds WAITING and
the wakes so far as they were. -/
theorem ExecEffect.waitKept_or_wake {i : Instr} {s t : State} (h : ExecEffect i s t) :
    ((s.waiting = true → t.waiting = true) ∧ wakes t.outputs = wakes s.outputs) ∨
      ∃ u, t = wake u ∧ u.waiting = s.waiting ∧ wakes u.outputs = wakes s.outputs := by
  cases h with
  | trigStart => exact .inr ⟨_, rfl, rfl, wakes_append _ _⟩
  | trigBusy => exact .inr ⟨s, rfl, rfl, rfl⟩
  | convDone => exact .inr ⟨_, rfl, rfl, rfl⟩
  | byteReady => exact .inr ⟨_, rfl, by simp, by simp [wakes]⟩
  | startSend => exact .inl ⟨id, wakes_append _ _⟩
  | wfi => exact .inl ⟨fun _ => rfl, rfl⟩
  | build => left; simp
  | _ => exact .inl ⟨id, rfl⟩

/-- Settles O47: a kept wait strobes nothing, and a wake strobes where it finds WAITING = 1. -/
theorem wakeStrobesExactlyWhereAWaitEnds : Obligations.WakeStrobesExactlyWhereAWaitEnds := by
  intro i s t h
  obtain ⟨hwait, hwakes⟩ | ⟨u, rfl, hwait, hwakes⟩ := (exec_effect h).waitKept_or_wake
  · have hno : ¬ (s.waiting = true ∧ t.waiting = false) :=
      fun ⟨hs, ht⟩ => ne_true_of_eq_false ht (hwait hs)
    rw [if_neg hno, hwakes, Nat.add_zero]
  · rw [wakes_wake, hwakes, hwait]
    simp

/-! ### The level of a byte-ready -/

/-- Settles O49: an event but the byte-ready itself leaves TXIE and TX_EMPTY, as the transport's take has
no step with TX_EMPTY = 1. -/
theorem byteReadyLevelSurvivesOtherEvents : Obligations.ByteReadyLevelSurvivesOtherEvents := by
  intro i s t hevent hi hready h
  rw [enabled_evtByteReady_iff] at hready ⊢
  cases (exec_effect h).transmitter with
  | kept _ hsame => rwa [hsame.txie, hsame.txEmpty]
  | build => cases hevent
  | start => cases hevent
  | sendNext => exact absurd rfl hi
  | take he => exact absurd hready.2 (ne_true_of_eq_false he)

end Sys2Proof.Machine
end

section
/-! PROOFS. Reset and hazards (70_reset_and_hazards.md): what the block accepts right after reset, and a
BUILD that runs into the frame being sent. -/

namespace Sys2Proof.Machine

/-! ### BUILD while Sending -/

section
variable {s : State} (hsending : s.txState = .sending)
include hsending

theorem errBuildBusy_build_of_sending : (storeFrame (markBuildBusy s)).errBuildBusy = true := by
  simp [hsending]

theorem txState_build_of_sending : (storeFrame (markBuildBusy s)).txState = .sending := by
  simpa using hsending

/-- 43_transmitter.md R163: the bytes still owed are read from PKT, so they are the new frame's. -/
theorem unsent_build_of_sending (hwf : s.pkt.wf = true) :
    unsent (storeFrame (markBuildBusy s)) =
      (frameBytes s.cfg (currentField s) (voltageField s)).drop s.txCursor.toNat := by
  rw [unsent_of_sending (txState_build_of_sending hsending), frameOf_build hwf, storeFrame_txCursor,
    markBuildBusy_txCursor]

end

theorem txLine_inFlight_build (s : State) :
    (storeFrame (markBuildBusy s)).txLine ++ inFlight (storeFrame (markBuildBusy s)) =
      s.txLine ++ inFlight s := by
  simp [inFlight]

theorem isFrame_build {s : State} (hwf : s.pkt.wf = true) :
    IsFrame (storeFrame (markBuildBusy s)).cfg (storeFrame (markBuildBusy s)).pkt := by
  rw [markBuildBusy_eq]
  exact storedFrame_isFrame hwf s.cfg _ _

/-- Settles O50: BUILD writes PKT and ERR_BUILD_BUSY alone, and the engine, which keeps its cursor, reads
its remaining bytes from the new PKT. -/
theorem buildWhileSendingMixesTwoFrames : Obligations.BuildWhileSendingMixesTwoFrames := by
  intro s hact hwf hsending
  exact ⟨_, exec_build_of_mayAct hact, errBuildBusy_build_of_sending hsending,
    txLine_inFlight_build s, txState_build_of_sending hsending, by simp, by simp,
    isFrame_build hwf, frameOf_build hwf, unsent_build_of_sending hsending hwf⟩

/-! ### Entry after reset -/

theorem mayAct_resetWith (c : Config) : mayAct (State.resetWith c) := ⟨rfl, rfl⟩

/-- 43_transmitter.md R161: START_SEND finds TX_EMPTY = 1; no other command has a guard of its own. -/
theorem enabled_command_resetWith {i : Instr} (hc : i.isCommand = true) (c : Config) :
    enabled i (State.resetWith c) = true := by
  by_cases hi : i = .startSend
  · rw [hi]
    exact (enabled_startSend_iff _).mpr ⟨rfl, .inr (.inr rfl)⟩
  · exact enabled_command_of_mayAct hc hi (mayAct_resetWith c)

/-- Settles O30: TXIE = 0 masks the byte-ready, and CONV_BUSY = 0 makes a completion unstarted. -/
theorem entryAfterReset : Obligations.EntryAfterReset :=
  fun c => ⟨mayAct_resetWith c, fun _ hc => enabled_command_resetWith hc c, rfl, rfl, rfl,
    fun codeI codeV => ⟨rfl, exec_evtConvDone_of_free rfl rfl codeI codeV⟩⟩

end Sys2Proof.Machine
end
